-- ==== Sys2Proof/Word.lean ====
section
/-! DEFINITION. The word types of the block: bytes, 16-bit words and register numbers (spec/00_scope.md R7, R8; R13, R18). -/

namespace Sys2Proof

/-- An 8-bit value: a general register, a timer, a memory byte (R8, R13, R20, R23). -/
abbrev Byte := BitVec 8

/-- A 16-bit value: an instruction word, `I`, `PC` or a stack entry (R17, R18, R19, R50). -/
abbrev Word := BitVec 16

/-- The number of a general register, V0..VF (R13): an X or Y field of 4 bits (R53) names each of the NUM_V registers. -/
abbrev Reg := Fin 16

/-- The number of a hex key, 0..F, one of NUM_KEYS (R22). -/
abbrev Key := Fin 16

end Sys2Proof
end

