-- ==== Sys2Proof/Config.lean ====
section
/-! DEFINITION. The implementation parameters of spec/00_scope.md R5, as named constants, and the free values: the timer
divisor, which no source gives, and the random bytes. `INSTR_INTERVAL` is time, which no rule reads and the model leaves out
(log entry 15), so it has no constant here. -/

namespace Sys2Proof.Config

/-! ### Memory and program -/

/-- `MEM_SIZE`: 4096 bytes (R5, R34). -/
@[simp] abbrev memSize : Nat := 4096

/-- `FONT_BASE` (R5, R38). -/
@[simp] abbrev fontBase : Nat := 0x000

/-- `FONT_GLYPHS` (R5). -/
@[simp] abbrev fontGlyphs : Nat := 16

/-- `FONT_GLYPH_BYTES` (R5). -/
@[simp] abbrev fontGlyphBytes : Nat := 5

/-- `FONT_SIZE`: 80 bytes, the glyphs by the bytes of one (R5). -/
@[simp] abbrev fontSize : Nat := fontGlyphs * fontGlyphBytes

/-- `PROG_BASE` (R5, R38). -/
@[simp] abbrev progBase : Nat := 0x200

/-- `MAX_PROGRAM`: the longest image `loadProgram` accepts (R5, R133). -/
@[simp] abbrev maxProgram : Nat := 3584

/-! ### Registers -/

/-- `NUM_V` (R5, R13). -/
@[simp] abbrev numV : Nat := 16

/-- `V_WIDTH` (R5, R13). -/
@[simp] abbrev vWidth : Nat := 8

/-- `I_WIDTH` (R5, R17). -/
@[simp] abbrev iWidth : Nat := 16

/-- `PC_WIDTH` (R5, R18). -/
@[simp] abbrev pcWidth : Nat := 16

/-- `PC_RESET` (R5, R18). -/
abbrev pcReset : BitVec pcWidth := 0x200

/-- `INSTR_BYTES`: an instruction is 2 bytes long (R5, R50). -/
@[simp] abbrev instrBytes : Nat := 2

/-- `STACK_DEPTH` (R5, R19). -/
@[simp] abbrev stackDepth : Nat := 16

/-- `STACK_ENTRY_WIDTH` (R5, R19). -/
@[simp] abbrev stackEntryWidth : Nat := 16

/-- The highest value of `SP`, which ranges over 0..16 (R5, R19, D8). -/
@[simp] abbrev spMax : Nat := 16

/-- `TIMER_WIDTH` (R5, R20, D24). -/
@[simp] abbrev timerWidth : Nat := 8

/-! ### Display and keypad -/

/-- `DISPLAY_WIDTH` (R5, R21). -/
@[simp] abbrev displayWidth : Nat := 64

/-- `DISPLAY_HEIGHT` (R5, R21). -/
@[simp] abbrev displayHeight : Nat := 32

/-- `NUM_KEYS` (R5, R22). -/
@[simp] abbrev numKeys : Nat := 16

/-! ### Codes and open parameters -/

/-- The code of the load-time fault OutOfSpace (R115). -/
@[simp] abbrev outOfSpaceCode : Nat := 16

/-- DESIGN CHOICE, safe (log entry 2): one less than `TIMER_DIVISOR`. No source gives the value (R5, D25), so it has no body
here, and a statement holds whatever it is. -/
opaque timerDivisorLess1 : Nat

/-- `TIMER_DIVISOR`: a positive integer, otherwise open (R5, R112, D25; log entry 2). -/
def timerDivisor : Nat := timerDivisorLess1 + 1

/-- DESIGN CHOICE, safe (log entry 1): the random bytes. `randByte n` is the byte of the draw number `n`; it has no body, so
each CXNN takes a byte that nothing constrains (R89, D33, U6). -/
opaque randByte : Nat → BitVec vWidth

/-- The spec's default of the parameter `FONT` (R100, D19, GK2; log entry 3): the glyphs 0..F, five rows each. -/
def fontDefault : Vector Byte fontSize :=
  #v[0xF0, 0x90, 0x90, 0x90, 0xF0,  0x20, 0x60, 0x20, 0x20, 0x70,
     0xF0, 0x10, 0xF0, 0x80, 0xF0,  0xF0, 0x10, 0xF0, 0x10, 0xF0,
     0x90, 0x90, 0xF0, 0x10, 0x10,  0xF0, 0x80, 0xF0, 0x10, 0xF0,
     0xF0, 0x80, 0xF0, 0x90, 0xF0,  0xF0, 0x10, 0x20, 0x40, 0x40,
     0xF0, 0x90, 0xF0, 0x90, 0xF0,  0xF0, 0x90, 0xF0, 0x10, 0xF0,
     0xF0, 0x90, 0xF0, 0x90, 0x90,  0xE0, 0x90, 0xE0, 0x90, 0xE0,
     0xF0, 0x80, 0x80, 0x80, 0xF0,  0xE0, 0x90, 0x90, 0x90, 0xE0,
     0xF0, 0x80, 0xF0, 0x80, 0xF0,  0xF0, 0x80, 0xF0, 0x80, 0x80]

end Sys2Proof.Config
end

