-- ==== Sys2Proof/Syntax.lean ====
section
/-! DEFINITION. The 34 instructions of spec/opcode_table.json, one constructor a row, in the table's order (R60, R65). -/

namespace Sys2Proof

/-- An instruction. `x` and `y` are register numbers, `nn`, `nnn` and `n` immediates (R51, R53). The operand `z` of SE_XY and
SNE_XY is the low nibble that no rule examines (R56); the `y` of SHR_XY and SHL_XY is not read (R85, R87). -/
inductive Instr where
  /-- 00E0, clear the display (R98). -/
  | cls
  /-- 00EE, return from subroutine (R68). -/
  | ret
  /-- 1NNN, jump (R69). -/
  | jpNNN (nnn : BitVec 12)
  /-- 2NNN, call subroutine (R70). -/
  | callNNN (nnn : BitVec 12)
  /-- 3XNN, skip next if `V[x] == nn` (R71). -/
  | seXNN (x : Reg) (nn : Byte)
  /-- 4XNN, skip next if `V[x] != nn` (R72). -/
  | sneXNN (x : Reg) (nn : Byte)
  /-- 5XYN, skip next if `V[x] == V[y]` (R73). -/
  | seXY (x y : Reg) (z : BitVec 4)
  /-- 6XNN, `V[x] = nn` (R77). -/
  | ldXNN (x : Reg) (nn : Byte)
  /-- 7XNN, `V[x] = V[x] + nn` without a flag (R78). -/
  | addXNN (x : Reg) (nn : Byte)
  /-- 8XY0, `V[x] = V[y]` (R79). -/
  | ldXY (x y : Reg)
  /-- 8XY1, bitwise or (R80). -/
  | orXY (x y : Reg)
  /-- 8XY2, bitwise and (R81). -/
  | andXY (x y : Reg)
  /-- 8XY3, bitwise exclusive or (R82). -/
  | xorXY (x y : Reg)
  /-- 8XY4, add with carry in VF (R83). -/
  | addXY (x y : Reg)
  /-- 8XY5, `V[x] - V[y]` with no-borrow in VF (R84). -/
  | subXY (x y : Reg)
  /-- 8XY6, shift right by one (R85). -/
  | shrXY (x y : Reg)
  /-- 8XY7, `V[y] - V[x]` with no-borrow in VF (R86). -/
  | subnXY (x y : Reg)
  /-- 8XYE, shift left by one (R87). -/
  | shlXY (x y : Reg)
  /-- 9XYN, skip next if `V[x] != V[y]` (R74). -/
  | sneXY (x y : Reg) (z : BitVec 4)
  /-- ANNN, `I = nnn` (R91). -/
  | ldINNN (nnn : BitVec 12)
  /-- BNNN, jump to `V[0] + nnn` (R75). -/
  | jpV0NNN (nnn : BitVec 12)
  /-- CXNN, random byte and `nn` (R89). -/
  | rndXNN (x : Reg) (nn : Byte)
  /-- DXYN, draw a sprite of `n` rows (R99). -/
  | drwXYN (x y : Reg) (n : BitVec 4)
  /-- EX9E, skip next if the key `V[x]` is pressed (R102). -/
  | skpX (x : Reg)
  /-- EXA1, skip next if the key `V[x]` is not pressed (R103). -/
  | sknpX (x : Reg)
  /-- FX07, `V[x] = DT` (R105). -/
  | ldXDT (x : Reg)
  /-- FX0A, wait for a key press (R104). -/
  | ldXK (x : Reg)
  /-- FX15, `DT = V[x]` (R106). -/
  | ldDTX (x : Reg)
  /-- FX18, `ST = V[x]` (R107). -/
  | ldSTX (x : Reg)
  /-- FX1E, `I = I + V[x]` (R92). -/
  | addIX (x : Reg)
  /-- FX29, `I` = address of the glyph of `V[x]` (R93). -/
  | ldFX (x : Reg)
  /-- FX33, store the decimal digits of `V[x]` (R94). -/
  | ldBX (x : Reg)
  /-- FX55, store `V[0]` .. `V[x]` (R95). -/
  | ldIX (x : Reg)
  /-- FX65, load `V[0]` .. `V[x]` (R96). -/
  | ldXI (x : Reg)
  deriving DecidableEq, Repr

end Sys2Proof
end

