-- ==== Sys2Proof/WellFormed.lean ====
section
/-! DEFINITION. The checks on what comes in from outside: the spelling of an instruction (R56) and the length of a program
image (R133). The range of every operand is carried by its type (R53), so an instruction has no other check. -/

namespace Sys2Proof

/-- The instruction is spelled canonically: the low nibble of 5XYN and 9XYN is 0 (R56). The machine runs the other spellings
all the same, so this is a check on a program's text and no premise of any meaning. -/
def Instr.canonical : Instr → Bool
  | .seXY _ _ z => z == 0
  | .sneXY _ _ z => z == 0
  | .cls | .ret => true
  | .jpNNN _ | .callNNN _ | .ldINNN _ | .jpV0NNN _ => true
  | .seXNN _ _ | .sneXNN _ _ | .ldXNN _ _ | .addXNN _ _ | .rndXNN _ _ | .drwXYN _ _ _ => true
  | .ldXY _ _ | .orXY _ _ | .andXY _ _ | .xorXY _ _ | .addXY _ _ | .subXY _ _ | .shrXY _ _ | .subnXY _ _ | .shlXY _ _ => true
  | .skpX _ | .sknpX _ | .ldXDT _ | .ldXK _ | .ldDTX _ | .ldSTX _ | .addIX _ | .ldFX _ | .ldBX _ | .ldIX _ | .ldXI _ => true

/-- Every value of every operand type has an encoding and is executed (R53, R61), so every term is well-formed; that decoding
its encoding gives it back is the statement DecodeInvertsEncode. -/
def Instr.wellFormed : Instr → Bool
  | .cls | .ret => true
  | .jpNNN nnn | .callNNN nnn | .ldINNN nnn | .jpV0NNN nnn => nnn.toNat < 0x1000
  | .seXNN x nn | .sneXNN x nn | .ldXNN x nn | .addXNN x nn | .rndXNN x nn => x.val < 16 && nn.toNat < 0x100
  | .seXY x y z | .sneXY x y z | .drwXYN x y z => x.val < 16 && y.val < 16 && z.toNat < 16
  | .ldXY x y | .orXY x y | .andXY x y | .xorXY x y | .addXY x y | .subXY x y | .shrXY x y | .subnXY x y | .shlXY x y =>
      x.val < 16 && y.val < 16
  | .skpX x | .sknpX x | .ldXDT x | .ldXK x | .ldDTX x | .ldSTX x | .addIX x | .ldFX x | .ldBX x | .ldIX x | .ldXI x =>
      x.val < 16

/-- A program image fits: at most 3584 bytes (R133). Nothing else about an image is checked. -/
def imageFits (image : List Byte) : Bool := image.length ≤ Config.maxProgram

end Sys2Proof
end

