-- ==== Sys2Proof/Decode.lean ====
section
/-! DEFINITION. Decoding and encoding of instruction words (spec/30_encoding.md R50 to R64), and the words as bytes. -/

namespace Sys2Proof

/-! ### Fields -/

/-- The source's `field(w, start, length)`, which counts from the most significant bit: `w[15 - s : 16 - s - l]` (R7). -/
def field (w : Word) (start len : Nat) : BitVec len := w.extractLsb' (16 - start - len) len

/-- The opcode group `w[15:12]` (R51). -/
def fieldG (w : Word) : BitVec 4 := field w 0 4

/-- The register index `w[11:8]` (R51). -/
def fieldX (w : Word) : Reg := (field w 4 4).toFin

/-- The register index `w[7:4]` (R51). -/
def fieldY (w : Word) : Reg := (field w 8 4).toFin

/-- The nibble `w[3:0]` (R51). -/
def fieldN (w : Word) : BitVec 4 := field w 12 4

/-- The byte `w[7:0]` (R51). -/
def fieldNN (w : Word) : Byte := field w 8 8

/-- The address `w[11:0]` (R51). -/
def fieldNNN (w : Word) : BitVec 12 := field w 4 12

/-! ### Selectors

The one table of selector values, used by the decoder and the encoder alike. Those of group F are not in the source: the spec
supplies them from general knowledge (R59, D11, GK1; log entry 5). -/

namespace Sel

/-- 00E0 (R54). -/
def cls : BitVec 12 := 0x0E0
/-- 00EE (R54). -/
def ret : BitVec 12 := 0x0EE
/-- EX9E (R58). -/
def skpX : Byte := 0x9E
/-- EXA1 (R58). -/
def sknpX : Byte := 0xA1
/-- FX07 (R59). -/
def ldXDT : Byte := 0x07
/-- FX0A (R59). -/
def ldXK : Byte := 0x0A
/-- FX15 (R59). -/
def ldDTX : Byte := 0x15
/-- FX18 (R59). -/
def ldSTX : Byte := 0x18
/-- FX1E (R59). -/
def addIX : Byte := 0x1E
/-- FX29 (R59). -/
def ldFX : Byte := 0x29
/-- FX33 (R59). -/
def ldBX : Byte := 0x33
/-- FX55 (R59). -/
def ldIX : Byte := 0x55
/-- FX65 (R59). -/
def ldXI : Byte := 0x65

end Sel

/-! ### Decoding -/

/-- Why bytes are no instruction. -/
inductive DecodeError where
  /-- The word is not in the dispatch table (R61). -/
  | invalidOpcode (w : Word)
  /-- Fewer than the two bytes of an instruction (R50) are there; a fetch never gives that (R37). -/
  | truncated (nBytes : Nat)
  deriving DecidableEq, Repr

/-- Group 0, selected by the low 12 bits (R54). -/
def decode0 (w : Word) : Option Instr :=
  if fieldNNN w = Sel.cls then some .cls
  else if fieldNNN w = Sel.ret then some .ret
  else none

/-- Group 8, selected by the low nibble (R57). -/
def decode8 (w : Word) : Option Instr :=
  match (fieldN w).toNat with
  | 0x0 => some (.ldXY (fieldX w) (fieldY w))
  | 0x1 => some (.orXY (fieldX w) (fieldY w))
  | 0x2 => some (.andXY (fieldX w) (fieldY w))
  | 0x3 => some (.xorXY (fieldX w) (fieldY w))
  | 0x4 => some (.addXY (fieldX w) (fieldY w))
  | 0x5 => some (.subXY (fieldX w) (fieldY w))
  | 0x6 => some (.shrXY (fieldX w) (fieldY w))
  | 0x7 => some (.subnXY (fieldX w) (fieldY w))
  | 0xE => some (.shlXY (fieldX w) (fieldY w))
  | _ => none

/-- Group E, selected by the low byte (R58). -/
def decodeE (w : Word) : Option Instr :=
  if fieldNN w = Sel.skpX then some (.skpX (fieldX w))
  else if fieldNN w = Sel.sknpX then some (.sknpX (fieldX w))
  else none

/-- Group F, selected by the low byte (R59). -/
def decodeF (w : Word) : Option Instr :=
  if fieldNN w = Sel.ldXDT then some (.ldXDT (fieldX w))
  else if fieldNN w = Sel.ldXK then some (.ldXK (fieldX w))
  else if fieldNN w = Sel.ldDTX then some (.ldDTX (fieldX w))
  else if fieldNN w = Sel.ldSTX then some (.ldSTX (fieldX w))
  else if fieldNN w = Sel.addIX then some (.addIX (fieldX w))
  else if fieldNN w = Sel.ldFX then some (.ldFX (fieldX w))
  else if fieldNN w = Sel.ldBX then some (.ldBX (fieldX w))
  else if fieldNN w = Sel.ldIX then some (.ldIX (fieldX w))
  else if fieldNN w = Sel.ldXI then some (.ldXI (fieldX w))
  else none

/-- The dispatcher: the instruction of a word, `none` for an illegal one (R54 to R59, R61, R62). -/
def decodeGroup (w : Word) : Option Instr :=
  match (fieldG w).toNat with
  | 0x0 => decode0 w
  | 0x1 => some (.jpNNN (fieldNNN w))
  | 0x2 => some (.callNNN (fieldNNN w))
  | 0x3 => some (.seXNN (fieldX w) (fieldNN w))
  | 0x4 => some (.sneXNN (fieldX w) (fieldNN w))
  | 0x5 => some (.seXY (fieldX w) (fieldY w) (fieldN w))
  | 0x6 => some (.ldXNN (fieldX w) (fieldNN w))
  | 0x7 => some (.addXNN (fieldX w) (fieldNN w))
  | 0x8 => decode8 w
  | 0x9 => some (.sneXY (fieldX w) (fieldY w) (fieldN w))
  | 0xA => some (.ldINNN (fieldNNN w))
  | 0xB => some (.jpV0NNN (fieldNNN w))
  | 0xC => some (.rndXNN (fieldX w) (fieldNN w))
  | 0xD => some (.drwXYN (fieldX w) (fieldY w) (fieldN w))
  | 0xE => decodeE w
  | 0xF => decodeF w
  | _ => none

/-- Decode a word, total on all 65,536 of them, rejecting by name (R62). -/
def decodeWord (w : Word) : Except DecodeError Instr :=
  match decodeGroup w with
  | some i => .ok i
  | none => .error (.invalidOpcode w)

/-- Merge two bytes big-endian: the byte at the lower address is bits 15:8 (R37, R40). -/
def mergeBytes (hi lo : Byte) : Word := BitVec.ofNat 16 (hi.toNat * 256 + lo.toNat)

/-- The byte of a word that lies at the lower address (R40). -/
def highByte (w : Word) : Byte := field w 0 8

/-- The byte of a word that lies at the higher address (R40). -/
def lowByte (w : Word) : Byte := field w 8 8

/-- Decode the first instruction of a list of bytes and give the rest: exactly two bytes are consumed (R50, R64). -/
def decodeBytes : List Byte → Except DecodeError (Instr × List Byte)
  | hi :: lo :: rest =>
    match decodeWord (mergeBytes hi lo) with
    | .ok i => .ok (i, rest)
    | .error e => .error e
  | short => .error (.truncated short.length)

/-! ### Encoding -/

/-- Format NNN (R52, R63). -/
def packNNN (g : Nat) (nnn : BitVec 12) : Word := BitVec.ofNat 16 (g * 0x1000 + nnn.toNat)

/-- Formats XNN and XS (R52, R63). -/
def packXNN (g : Nat) (x : Reg) (nn : Byte) : Word := BitVec.ofNat 16 (g * 0x1000 + x.val * 0x100 + nn.toNat)

/-- Formats XY, XYS and XYN (R52, R63). -/
def packXYN (g : Nat) (x y : Reg) (n : BitVec 4) : Word :=
  BitVec.ofNat 16 (g * 0x1000 + x.val * 0x100 + y.val * 0x10 + n.toNat)

/-- The word of an instruction (R52, R54 to R59). -/
def encode : Instr → Word
  | .cls => packNNN 0x0 Sel.cls
  | .ret => packNNN 0x0 Sel.ret
  | .jpNNN nnn => packNNN 0x1 nnn
  | .callNNN nnn => packNNN 0x2 nnn
  | .seXNN x nn => packXNN 0x3 x nn
  | .sneXNN x nn => packXNN 0x4 x nn
  | .seXY x y z => packXYN 0x5 x y z
  | .ldXNN x nn => packXNN 0x6 x nn
  | .addXNN x nn => packXNN 0x7 x nn
  | .ldXY x y => packXYN 0x8 x y 0x0
  | .orXY x y => packXYN 0x8 x y 0x1
  | .andXY x y => packXYN 0x8 x y 0x2
  | .xorXY x y => packXYN 0x8 x y 0x3
  | .addXY x y => packXYN 0x8 x y 0x4
  | .subXY x y => packXYN 0x8 x y 0x5
  | .shrXY x y => packXYN 0x8 x y 0x6
  | .subnXY x y => packXYN 0x8 x y 0x7
  | .shlXY x y => packXYN 0x8 x y 0xE
  | .sneXY x y z => packXYN 0x9 x y z
  | .ldINNN nnn => packNNN 0xA nnn
  | .jpV0NNN nnn => packNNN 0xB nnn
  | .rndXNN x nn => packXNN 0xC x nn
  | .drwXYN x y n => packXYN 0xD x y n
  | .skpX x => packXNN 0xE x Sel.skpX
  | .sknpX x => packXNN 0xE x Sel.sknpX
  | .ldXDT x => packXNN 0xF x Sel.ldXDT
  | .ldXK x => packXNN 0xF x Sel.ldXK
  | .ldDTX x => packXNN 0xF x Sel.ldDTX
  | .ldSTX x => packXNN 0xF x Sel.ldSTX
  | .addIX x => packXNN 0xF x Sel.addIX
  | .ldFX x => packXNN 0xF x Sel.ldFX
  | .ldBX x => packXNN 0xF x Sel.ldBX
  | .ldIX x => packXNN 0xF x Sel.ldIX
  | .ldXI x => packXNN 0xF x Sel.ldXI

/-- The bytes of an instruction, as they lie in memory (R40, R50). -/
def encodeBytes (i : Instr) : List Byte := [highByte (encode i), lowByte (encode i)]

/-! ### The opcode table's numbering -/

/-- The instruction word that spec/opcode_table.json numbers `w` on `nbits` bits: one 16-bit word, bit 0 its least significant
bit (R7, R50); the bits above `nbits` are 0. -/
def tableWord (nbits w : Nat) : Word := BitVec.ofNat 16 (w % 2 ^ nbits)

/-- What the decoder reads from the table's word, laid out big-endian as in memory. -/
def decodeTableWord (nbits w : Nat) : Option Instr :=
  match decodeBytes [highByte (tableWord nbits w), lowByte (tableWord nbits w)] with
  | .ok (i, _) => some i
  | .error _ => none

end Sys2Proof
end

