-- ==== Sys2Proof/Machine/State.lean ====
section
/-! DEFINITION. The state of the block (spec/10_state.md), the reasons a step can stop, and the state after reset (R131). -/

namespace Sys2Proof.Machine

/-- A host event, already translated to hex digits (R109). -/
inductive HostEvent where
  /-- Key `k` was pressed. -/
  | press (k : Key)
  /-- Key `k` was released. -/
  | release (k : Key)
  /-- The window was closed (R110). -/
  | close
  deriving DecidableEq, Repr

/-- What the host does at one step (R125): it lets the loop step with a list of events, or gives a command. -/
inductive HostInput where
  /-- One iteration of the loop with these events pending (R108, R109). -/
  | poll (events : List HostEvent)
  /-- The `reset` command (R131). -/
  | reset
  /-- The `load` command with a program image (R133). -/
  | load (image : List Byte)
  deriving DecidableEq, Repr

/-- The run-time faults (R115). They are states the block enters, not stops of the step. -/
inductive FaultKind where
  /-- Code 1: the word at `PC` is illegal. -/
  | invalidOpcode
  /-- Code 2: `PC > 0xFFE` at fetch. -/
  | programCounterOutOfBounds
  /-- Code 3: CALL with 16 entries on the stack. -/
  | stackOverflow
  /-- Code 4: RET with an empty stack. -/
  | stackUnderflow
  /-- Code 5: a handler address at or above 4096. -/
  | memoryOutOfBounds
  /-- Code 6: EX9E or EXA1 with `V[x] > 15`. -/
  | keyIndexOutOfRange
  deriving DecidableEq, Repr

/-- The fault record `(code, pc, opcode or none, info or none)` (R116). -/
structure FaultRecord where
  kind : FaultKind
  pc : Word
  opcode : Option Word
  info : Option Nat
  deriving DecidableEq, Repr

/-- The run status `RS` (R26). -/
inductive RunStatus where
  /-- The next step executes the instruction at `PC`. -/
  | running
  /-- An FX0A at `PC` waits for a key press; `x` is its register. -/
  | awaitingKey (x : Reg)
  /-- The run was ended by a window close; final. -/
  | quit
  /-- The run was ended by a fault; final until the next reset. -/
  | faulted (rec : FaultRecord)
  deriving DecidableEq, Repr

/-- The load window: whether the `load` port is open, and how a load was answered (R125, R133, R134; log entry 6). -/
inductive Boot where
  /-- Directly after a reset: a load is taken. -/
  | fresh
  /-- A load was answered `Ok`, or the run has begun without one: no load is taken. -/
  | loaded
  /-- A load was answered `OutOfSpace`, with the image's length; the run never starts (R119). -/
  | outOfSpace (len : Nat)
  deriving DecidableEq, Repr

/-- The parameters whose values no source gives (R5), fixed when the block is built (R125): no step changes them. -/
structure Params where
  /-- `TIMER_DIVISOR`: completed instructions per timer decrement. -/
  timerDivisor : Nat
  /-- `FONT`: the 80 bytes that a reset puts at 0x000. -/
  font : Vector Byte Config.fontSize
  deriving DecidableEq, Repr

/-- The framebuffer: 32 rows of 64 cells, true for lit (R21). -/
abbrev Frame := Vector (Vector Bool Config.displayWidth) Config.displayHeight

/-- The state of the block. The last three fields are the model's own (R30). -/
structure State where
  /-- `V[0]` .. `V[15]` (R13). -/
  v : Vector (BitVec Config.vWidth) Config.numV
  /-- `I` (R17). -/
  index : BitVec Config.iWidth
  /-- `PC` (R18). -/
  pc : BitVec Config.pcWidth
  /-- `SP`, the number of stack entries in use (R19). -/
  sp : Fin (Config.spMax + 1)
  /-- `S[0]` .. `S[15]` (R19). -/
  stack : Vector (BitVec Config.stackEntryWidth) Config.stackDepth
  /-- `DT` (R20). -/
  dt : BitVec Config.timerWidth
  /-- `ST` (R20). -/
  st : BitVec Config.timerWidth
  /-- `FB` (R21). -/
  fb : Frame
  /-- `K[0]` .. `K[15]` (R22). -/
  keys : Vector Bool Config.numKeys
  /-- `M` (R23): the bytes that differ from the reset contents, addresses rising. -/
  mem : List Host.Cell
  /-- `TC`, the cadence counter (R25). -/
  tc : Nat
  /-- `RS` (R26). -/
  rs : RunStatus
  /-- `refresh`, high after a step that executed DXYN (R27). -/
  refresh : Bool
  /-- The load window (R134). -/
  boot : Boot
  /-- The build parameters (R5; log entries 2 and 3). -/
  params : Params
  /-- The host's inputs at the coming steps, the next step's first; where the list is empty, nothing arrives (log entry 4). -/
  inputs : List HostInput
  /-- How many random bytes were drawn (R89; log entry 1). -/
  draws : Nat
  deriving DecidableEq, Repr

/-- Why a step is no step: the run has ended or never starts. Each is safe: the spec gives no step there (R108, R119), and the
state that led here shows what happened. An instruction never answers with one of these. -/
inductive Fault where
  /-- The step at `RS = Quit` (R108, R110). Raised by the step only; safe. -/
  | runQuit
  /-- The step at `RS = Faulted(rec)` (R108, R117). Raised by the step only; safe. -/
  | runFaulted (rec : FaultRecord)
  /-- A step after a load that was answered OutOfSpace: the run never starts (R119). Raised by the step only; safe. -/
  | runNotStarted (imageLength : Nat)
  deriving DecidableEq, Repr

/-- What the model does not accept. -/
inductive Refusal where
  /-- An instruction without a meaning, rejected by name in `exec`; no arm does so now; safe. -/
  | notModelled (mnemonic : String)
  /-- A `load` command at a time other than directly after a reset, which the spec refuses (R134, D37). Raised by the step
  only; safe. -/
  | loadNotAfterReset
  deriving DecidableEq, Repr

/-- The state right after reset, field by field as R29 and R131 state it; the load window is open (R134). The last three fields
are the model's own: the parameters at their Config values, no input to come and no byte drawn (log entries 1 to 4). -/
def State.reset : State where
  v := Vector.replicate Config.numV 0
  index := 0
  pc := Config.pcReset
  sp := 0
  stack := Vector.replicate Config.stackDepth 0
  dt := 0
  st := 0
  fb := Vector.replicate Config.displayHeight (Vector.replicate Config.displayWidth false)
  keys := Vector.replicate Config.numKeys false
  mem := []
  tc := 0
  rs := .running
  refresh := false
  boot := .fresh
  params := { timerDivisor := Config.timerDivisor, font := Config.fontDefault }
  inputs := []
  draws := 0

end Sys2Proof.Machine
end

