-- ==== Sys2Proof/Machine/Ops.lean ====
section
/-! DEFINITION. The named operations over registers, stack, memory, framebuffer, keypad and timers; entering a fault (R116),
which is this block's only exception entry, and the reset that alone leaves one (R117); the reset and load procedures
(R131, R133). -/

namespace Sys2Proof.Machine

/-- The result of a step or of an instruction's meaning. -/
abbrev Result := Host.Outcome State Fault Refusal

/-! ### General registers, index register, program counter -/

/-- The number of VF (R14). -/
def flagReg : Reg := 0xF

/-- Read `V[x]` (R13). -/
def State.reg (s : State) (x : Reg) : Byte := s.v[x]

/-- Write `V[x]` (R13): no register is hard-wired. -/
def State.setReg (s : State) (x : Reg) (b : Byte) : State := { s with v := s.v.set x b }

/-- `I <- a` (R17). -/
def State.setIndex (s : State) (a : Word) : State := { s with index := a }

/-- `pc <- target` (R9, R67). -/
def State.setPc (s : State) (target : Word) : State := { s with pc := target }

/-- The length of `n` instructions, as `PC` advances by them (R31, R50). -/
def instrStep (n : Nat) : Word := BitVec.ofNat Config.pcWidth (n * Config.instrBytes)

/-- `pc <- PC + 2`, the last act of every instruction that is no transfer (R31). -/
def State.advance (s : State) : State := s.setPc (s.pc + instrStep 1)

/-- A skip: 4 onward when the condition holds, else 2 (R31, R67). -/
def State.skipIf (s : State) (holds : Bool) : State := s.setPc (if holds then s.pc + instrStep 2 else s.pc + instrStep 1)

/-- `DT <- b` (R20). -/
def State.setDelay (s : State) (b : Byte) : State := { s with dt := b }

/-- `ST <- b` (R20). -/
def State.setSound (s : State) (b : Byte) : State := { s with st := b }

/-! ### Call stack -/

/-- Push a return address: `S[SP] <- a`, then `SP <- SP + 1`; `none` when all 16 entries are in use (R19, R70, D8). -/
def State.push (s : State) (a : Word) : Option State :=
  if h : s.sp.val < Config.stackDepth then
    some { s with stack := s.stack.set s.sp.val a, sp := ⟨s.sp.val + 1, Nat.succ_lt_succ h⟩ }
  else none

/-- The number of the stack's top entry names an entry: `SP` is at most 16 (R19). -/
theorem State.sp_pred_lt (s : State) : s.sp.val - 1 < Config.stackDepth := by
  have h : s.sp.val < 17 := s.sp.isLt
  show s.sp.val - 1 < 16
  omega

/-- Pop a return address: `SP <- SP - 1`, then read `S[SP]`, which is not cleared; `none` when no entry is in use (R19, R68). -/
def State.pop (s : State) : Option (Word × State) :=
  if 0 < s.sp.val then
    some (s.stack[s.sp.val - 1]'s.sp_pred_lt, { s with sp := ⟨s.sp.val - 1, Nat.lt_succ_of_lt s.sp_pred_lt⟩ })
  else none

/-! ### Memory

The list holds the bytes that differ from the reset contents, addresses rising; an unlisted address reads as a reset leaves it. -/

/-- What an unlisted address reads as: the font at 0x000..0x04F, 0 elsewhere (R23, R38). -/
def Memory.unlisted (font : Vector Byte Config.fontSize) (a : Nat) : Byte :=
  if h : a < Config.fontSize then font[a] else 0

/-- The listed byte at an address. -/
def Memory.lookup (a : Nat) : List Host.Cell → Option Byte
  | [] => none
  | c :: rest => if c.1 = a then some c.2 else Memory.lookup a rest

/-- Read one byte (R36), the address checked by the caller. -/
def Memory.read (font : Vector Byte Config.fontSize) (mem : List Host.Cell) (a : Nat) : Byte :=
  (Memory.lookup a mem).getD (Memory.unlisted font a)

/-- List a byte at its place in the order. -/
def Memory.insert (a : Nat) (b : Byte) : List Host.Cell → List Host.Cell
  | [] => [(a, b)]
  | c :: rest =>
    if a < c.1 then (a, b) :: c :: rest
    else if c.1 = a then (a, b) :: rest
    else c :: Memory.insert a b rest

/-- Take an address off the list. -/
def Memory.erase (a : Nat) : List Host.Cell → List Host.Cell
  | [] => []
  | c :: rest => if c.1 = a then Memory.erase a rest else c :: Memory.erase a rest

/-- Write one byte (R36), the address checked by the caller; writing what an unlisted address reads as removes the entry. -/
def Memory.write (font : Vector Byte Config.fontSize) (mem : List Host.Cell) (a : Nat) (b : Byte) : List Host.Cell :=
  if b = Memory.unlisted font a then Memory.erase a mem else Memory.insert a b mem

/-- The canonical form: addresses below 4096 and strictly rising, no entry equal to what an unlisted address reads as. -/
def Memory.wf (font : Vector Byte Config.fontSize) : List Host.Cell → Bool
  | [] => true
  | c :: rest =>
    decide (c.1 < Config.memSize) && decide (c.2 ≠ Memory.unlisted font c.1) && rest.all (fun d => decide (c.1 < d.1))
      && Memory.wf font rest

/-- `MemRead(a, 1)` after its check (R36). -/
def State.readByte (s : State) (a : Nat) : Byte := Memory.read s.params.font s.mem a

/-- `MemWrite(a, 1, b)` after its check (R36). -/
def State.writeByte (s : State) (a : Nat) (b : Byte) : State := { s with mem := Memory.write s.params.font s.mem a b }

/-- The bytes at `a`, `a + 1`, ..., in ascending order (R43). -/
def State.readBytes (s : State) (a n : Nat) : List Byte := (List.range n).map fun k => s.readByte (a + k)

/-- Store bytes at `a`, `a + 1`, ..., in ascending order (R43). -/
def State.storeBytes (s : State) (a : Nat) : List Byte → State
  | [] => s
  | b :: rest => (s.writeByte a b).storeBytes (a + 1) rest

/-- Load `V[0]` .. `V[x]` from the bytes at `a` .. `a + x`; the other registers keep their values (R96). -/
def State.loadRegs (s : State) (x : Reg) (a : Nat) : State :=
  { s with v := Vector.ofFn fun r : Reg => if r ≤ x then s.readByte (a + r.val) else s.reg r }

/-- The word at `PC`, high byte first (R37), the bounds checked by the caller. -/
def State.fetchWord (s : State) : Word := mergeBytes (s.readByte s.pc.toNat) (s.readByte (s.pc.toNat + 1))

/-! ### Framebuffer -/

/-- The column a sprite pixel falls on (R97). -/
def wrapX (a : Nat) : Fin Config.displayWidth := Fin.ofNat Config.displayWidth a

/-- The row a sprite row falls on (R97). -/
def wrapY (a : Nat) : Fin Config.displayHeight := Fin.ofNat Config.displayHeight a

/-- `FB(px, py)` (R21). -/
def Frame.cell (fb : Frame) (px : Fin Config.displayWidth) (py : Fin Config.displayHeight) : Bool := fb[py][px]

/-- `FB(px, py) <- not FB(px, py)` (R99). -/
def Frame.flip (fb : Frame) (px : Fin Config.displayWidth) (py : Fin Config.displayHeight) : Frame := fb.set py (fb[py].set px (!fb.cell px py))

/-- The framebuffer with every cell unlit (R98). -/
def Frame.clear : Frame := Vector.replicate Config.displayHeight (Vector.replicate Config.displayWidth false)

/-- Replace the framebuffer. -/
def State.setFrame (s : State) (fb : Frame) : State := { s with fb := fb }

/-- The cell `FB(px, py)` of a state, which is also what the `fb` port shows of it (R21, R126). -/
def State.pixel (s : State) (px : Fin Config.displayWidth) (py : Fin Config.displayHeight) : Bool := s.fb.cell px py

/-- `refresh()`: pulse the display-refresh output (R9, R126). -/
def State.pulseRefresh (s : State) : State := { s with refresh := true }

/-! ### Keypad, random source, timers, tone -/

/-- `K[k] <- b` (R22). -/
def State.setKey (s : State) (k : Key) (b : Bool) : State := { s with keys := s.keys.set k b }

/-- `K[k]` (R22). -/
def State.key (s : State) (k : Key) : Bool := s.keys[k]

/-- `RandByte()`: the byte of this draw (R9, R89), free (log entry 1). -/
def State.randByte (s : State) : Byte := Config.randByte s.draws

/-- One draw was taken. -/
def State.countDraw (s : State) : State := { s with draws := s.draws + 1 }

/-- One decrement of a timer, floored at 0 (R114). -/
def decTimer (b : Byte) : Byte := BitVec.ofNat 8 (b.toNat - 1)

/-- The cadence counter after one more completed instruction (R112). -/
def nextTc (divisor tc : Nat) : Nat := (tc + 1) % divisor

/-- `Complete()`: count the completed instruction, and at the end of a period decrement both timers (R108, R112). -/
def State.complete (s : State) : State :=
  { s with
    tc := nextTc s.params.timerDivisor s.tc
    dt := if nextTc s.params.timerDivisor s.tc = 0 then decTimer s.dt else s.dt
    st := if nextTc s.params.timerDivisor s.tc = 0 then decTimer s.st else s.st }

/-- The `tone` output: `ST != 0` (R27, R128). -/
def State.tone (s : State) : Bool := s.st != 0

/-! ### Faults -/

/-- The numeric code of a fault (R115, D29). -/
def FaultKind.code : FaultKind → Nat
  | .invalidOpcode => 1
  | .programCounterOutOfBounds => 2
  | .stackOverflow => 3
  | .stackUnderflow => 4
  | .memoryOutOfBounds => 5
  | .keyIndexOutOfRange => 6

/-- The code of the `load` port's answer, where the load failed (R115, R119). -/
def Boot.faultCode : Boot → Option Nat
  | .fresh => none
  | .loaded => none
  | .outOfSpace _ => some Config.outOfSpaceCode

/-- `raise E(info)`: the run status becomes `Faulted(rec)`, with the address of the faulting instruction, and nothing else is
written (R116). Every fault of the block enters here. There is no handler, no vector and no return (R117). -/
def State.raise (s : State) (kind : FaultKind) (opcode : Option Word) (info : Option Nat) : State :=
  { s with rs := .faulted { kind := kind, pc := s.pc, opcode := opcode, info := info } }

/-! ### Reset and load -/

/-- `Reset()` (R131), the only way out of `Faulted` and `Quit` (R116, R117). It reads no state of the block: what it keeps are
the build parameters, the count of draws (R136) and the host's coming inputs. -/
def State.resetBlock (s : State) : State :=
  { State.reset with params := s.params, inputs := s.inputs, draws := s.draws }

/-- `loadProgram(bytes)` (R133): an image that is too long copies nothing; otherwise its bytes go to 0x200 onward. -/
def State.loadProgram (s : State) (image : List Byte) : State :=
  if imageFits image then { s.storeBytes Config.progBase image with boot := .loaded }
  else { s with boot := .outOfSpace image.length }

end Sys2Proof.Machine
end

