-- ==== Sys2Proof/Machine/Operands.lean ====
section
/-! DEFINITION. The operand forms: immediates, effective addresses, key numbers, font addresses and decimal digits. -/

namespace Sys2Proof.Machine

/-- `zext_16(nnn)` (R8, R53). -/
def wordOfAddr (nnn : BitVec 12) : Word := nnn.setWidth Config.pcWidth

/-- `zext_16(b)` (R8, R53). -/
def wordOfByte (b : Byte) : Word := b.setWidth Config.iWidth

/-- The address of a handler's first byte, `I`, as a natural number (R42). -/
def State.baseAddr (s : State) : Nat := s.index.toNat

/-- The check of the `len` addresses `I` .. `I + len - 1`: where one is at or above 4096, the lowest such one (R90, R99). A
range of no bytes is in bounds. -/
def State.rangeFault (s : State) (len : Nat) : Option Nat :=
  if 0 < len ∧ Config.memSize ≤ s.baseAddr + (len - 1) then some (max s.baseAddr Config.memSize) else none

/-- The key that `V[x]` names, if it is one of 0..15 (R101). -/
def State.keyOf (s : State) (x : Reg) : Option Key :=
  if h : (s.reg x).toNat < Config.numKeys then some ⟨(s.reg x).toNat, h⟩ else none

/-- The glyph address of FX29, `FONT_BASE + 5 * V[x]`, the value not masked (R93). -/
def fontAddr (b : Byte) : Word := BitVec.ofNat Config.iWidth (Config.fontBase + Config.fontGlyphBytes * b.toNat)

/-- The three decimal digits of a byte: hundreds, tens, ones (R94). -/
def bcdDigits (b : Byte) : List Byte :=
  [BitVec.ofNat 8 (b.toNat / 100), BitVec.ofNat 8 (b.toNat / 10 % 10), BitVec.ofNat 8 (b.toNat % 10)]

/-- `V[0]` .. `V[x]`, in order (R95). -/
def State.regsUpTo (s : State) (x : Reg) : List Byte := s.v.toList.take (x.val + 1)

/-- `I` advanced by a block store or load, modulo 65536 (R90, R95, R96). -/
def State.indexPast (s : State) (x : Reg) : Word := BitVec.ofNat Config.iWidth (s.index.toNat + x.val + 1)

/-- A key number as the byte FX0A loads (R104). -/
def byteOfKey (k : Key) : Byte := BitVec.ofNat 8 k.val

end Sys2Proof.Machine
end

