-- ==== Sys2Proof/Machine/ControlFlow.lean ====
section
/-! DEFINITION. The control-flow instructions (spec/40_control_flow.md R67 to R75). -/

namespace Sys2Proof.Machine

/-- RET (R68): pop, then `PC` is the popped entry plus 2; an empty stack raises StackUnderflow. -/
def execRet (s : State) : Result :=
  match s.pop with
  | some (a, t) => .next (t.setPc (a + instrStep 1))
  | none => .next (s.raise .stackUnderflow (some (encode .ret)) none)

/-- JP_NNN (R69). -/
def execJpNNN (nnn : BitVec 12) (s : State) : Result := .next (s.setPc (wordOfAddr nnn))

/-- CALL_NNN (R70): push the address of this instruction itself; a full stack raises StackOverflow. -/
def execCallNNN (nnn : BitVec 12) (s : State) : Result :=
  match s.push s.pc with
  | some t => .next (t.setPc (wordOfAddr nnn))
  | none => .next (s.raise .stackOverflow (some (encode (.callNNN nnn))) none)

/-- SE_XNN (R71). -/
def execSeXNN (x : Reg) (nn : Byte) (s : State) : Result := .next (s.skipIf (s.reg x == nn))

/-- SNE_XNN (R72). -/
def execSneXNN (x : Reg) (nn : Byte) (s : State) : Result := .next (s.skipIf (s.reg x != nn))

/-- SE_XY (R73); the low nibble is not examined. -/
def execSeXY (x y : Reg) (s : State) : Result := .next (s.skipIf (s.reg x == s.reg y))

/-- SNE_XY (R74); the low nibble is not examined. -/
def execSneXY (x y : Reg) (s : State) : Result := .next (s.skipIf (s.reg x != s.reg y))

/-- JP_V0NNN (R75): the register is always `V[0]`, and the sum is not reduced modulo 4096. -/
def execJpV0NNN (nnn : BitVec 12) (s : State) : Result := .next (s.setPc (wordOfByte (s.reg 0) + wordOfAddr nnn))

end Sys2Proof.Machine
end

