-- ==== Sys2Proof/Machine/Flags.lean ====
section
/-! DEFINITION. The flag computations (R14), each from the operands as they were before the instruction (R15), and the order in
which result and flag are written. -/

namespace Sys2Proof.Machine

/-- A flag as the byte VF receives. -/
def flagByte (holds : Bool) : Byte := if holds then 1 else 0

/-- Carry of 8XY4: the exact sum is above 255 (R83). -/
def carry (a b : Byte) : Bool := decide (255 < a.toNat + b.toNat)

/-- No borrow of `a - b`: `a >= b` (R84, R86). -/
def noBorrow (a b : Byte) : Bool := decide (b.toNat ≤ a.toNat)

/-- Bit 0, which 8XY6 shifts out (R85). -/
def lowBit (a : Byte) : Bool := a.getLsbD 0

/-- Bit 7, which 8XYE shifts out (R87). -/
def highBit (a : Byte) : Bool := a.getLsbD 7

/-- `V[15] <- flag`. -/
def State.setFlag (s : State) (holds : Bool) : State := s.setReg flagReg (flagByte holds)

/-- The result first, the flag second, `PC` last, so that with `x = F` the flag remains (R15, R76). -/
def State.writeResultFlag (s : State) (x : Reg) (result : Byte) (flag : Bool) : State :=
  ((s.setReg x result).setFlag flag).advance

/-- A result without a flag: VF keeps its value unless `x = F` (R76, D15). -/
def State.writeResult (s : State) (x : Reg) (result : Byte) : State := (s.setReg x result).advance

end Sys2Proof.Machine
end

