-- ==== Sys2Proof/Machine/Display.lean ====
section
/-! DEFINITION. The display instructions and the framebuffer write unit (spec/43_display.md R97 to R99). -/

namespace Sys2Proof.Machine

/-- The framebuffer as it is being drawn on, and whether a lit cell was turned off so far (R99). -/
structure Drawing where
  fb : Frame
  collision : Bool
  deriving DecidableEq, Repr

/-- The pixel of a sprite byte at column `c`, 0 the leftmost: bit 7 - `c` (R97, R99, GK4; log entry 5). -/
def spriteBit (b : Byte) (c : Nat) : Bool := b.getLsbD (7 - c)

/-- A set sprite bit at a cell: a lit cell counts as a collision, and the cell flips (R97, R99). -/
def drawCell (px : Fin Config.displayWidth) (py : Fin Config.displayHeight) (d : Drawing) : Drawing :=
  { fb := d.fb.flip px py, collision := d.collision || d.fb.cell px py }

/-- The eight columns of a sprite byte, from the left, on the row `cy`, each wrapped on its own (R97, R99). -/
def drawRow (b : Byte) (cx cy : Nat) (d : Drawing) : Drawing :=
  (List.range 8).foldl (fun d c => if spriteBit b c then drawCell (wrapX (cx + c)) (wrapY cy) d else d) d

/-- The rows of a sprite, from the top (R99). -/
def drawRows (cx cy : Nat) : List Byte → Drawing → Drawing
  | [], d => d
  | b :: rest, d => drawRows cx (cy + 1) rest (drawRow b cx cy d)

/-- CLS (R98): no flag and no refresh pulse. -/
def execCls (s : State) : Result := .next (s.setFrame Frame.clear).advance

/-- DRW_XYN (R99): the coordinates and the sprite are read before VF is written; `n = 0` draws nothing, clears VF and still
pulses `refresh` (D20). -/
def execDrwXYN (x y : Reg) (n : BitVec 4) (s : State) : Result :=
  match s.rangeFault n.toNat with
  | some a => .next (s.raise .memoryOutOfBounds (some (encode (.drwXYN x y n))) (some a))
  | none =>
    let d := drawRows (s.reg x).toNat (s.reg y).toNat (s.readBytes s.baseAddr n.toNat) { fb := s.fb, collision := false }
    .next ((s.setFrame d.fb).setFlag d.collision).pulseRefresh.advance

end Sys2Proof.Machine
end

