-- ==== Sys2Proof/Machine/IndexMemory.lean ====
section
/-! DEFINITION. The index register and memory instructions (spec/42_index_memory.md R90 to R96). Each checks its whole address
range before it writes anything (R90, R116). -/

namespace Sys2Proof.Machine

/-- LD_INNN (R91). -/
def execLdINNN (nnn : BitVec 12) (s : State) : Result := .next (s.setIndex (wordOfAddr nnn)).advance

/-- ADD_IX (R92): modulo 65536, no flag. -/
def execAddIX (x : Reg) (s : State) : Result := .next (s.setIndex (s.index + wordOfByte (s.reg x))).advance

/-- LD_FX (R93). -/
def execLdFX (x : Reg) (s : State) : Result := .next (s.setIndex (fontAddr (s.reg x))).advance

/-- LD_BX (R94): the digits go to `I`, `I + 1`, `I + 2`; `I` is not changed. -/
def execLdBX (x : Reg) (s : State) : Result :=
  match s.rangeFault 3 with
  | some a => .next (s.raise .memoryOutOfBounds (some (encode (.ldBX x))) (some a))
  | none => .next (s.storeBytes s.baseAddr (bcdDigits (s.reg x))).advance

/-- LD_IX (R95): `V[0]` .. `V[x]` go to `I` onward, then `I` advances by `x + 1`. -/
def execLdIX (x : Reg) (s : State) : Result :=
  match s.rangeFault (x.val + 1) with
  | some a => .next (s.raise .memoryOutOfBounds (some (encode (.ldIX x))) (some a))
  | none => .next ((s.storeBytes s.baseAddr (s.regsUpTo x)).setIndex (s.indexPast x)).advance

/-- LD_XI (R96): `V[0]` .. `V[x]` come from `I` onward, then `I` advances by `x + 1`. -/
def execLdXI (x : Reg) (s : State) : Result :=
  match s.rangeFault (x.val + 1) with
  | some a => .next (s.raise .memoryOutOfBounds (some (encode (.ldXI x))) (some a))
  | none => .next ((s.loadRegs x s.baseAddr).setIndex (s.indexPast x)).advance

end Sys2Proof.Machine
end

