-- ==== Sys2Proof/Machine/KeysTimers.lean ====
section
/-! DEFINITION. The keypad and timer instructions (spec/44_keys_timers.md R101 to R107). -/

namespace Sys2Proof.Machine

/-- SKP_X (R102): a value above 15 raises KeyIndexOutOfRange. -/
def execSkpX (x : Reg) (s : State) : Result :=
  match s.keyOf x with
  | some k => .next (s.skipIf (s.key k))
  | none => .next (s.raise .keyIndexOutOfRange (some (encode (.skpX x))) (some (s.reg x).toNat))

/-- SKNP_X (R103): a value above 15 raises KeyIndexOutOfRange. -/
def execSknpX (x : Reg) (s : State) : Result :=
  match s.keyOf x with
  | some k => .next (s.skipIf (!s.key k))
  | none => .next (s.raise .keyIndexOutOfRange (some (encode (.sknpX x))) (some (s.reg x).toNat))

/-- LD_XDT (R105). -/
def execLdXDT (x : Reg) (s : State) : Result := .next (s.setReg x s.dt).advance

/-- LD_XK, its execution (R104): `await_key(x)`, and nothing else is written. Its completion is in Machine/Cycle.lean. -/
def execLdXK (x : Reg) (s : State) : Result := .next { s with rs := .awaitingKey x }

/-- LD_DTX (R106). -/
def execLdDTX (x : Reg) (s : State) : Result := .next (s.setDelay (s.reg x)).advance

/-- LD_STX (R107). -/
def execLdSTX (x : Reg) (s : State) : Result := .next (s.setSound (s.reg x)).advance

end Sys2Proof.Machine
end

