-- ==== Sys2Proof/Machine/RegisterAlu.lean ====
section
/-! DEFINITION. Register loads, arithmetic and bitwise operations (spec/41_register_alu.md R76 to R89). -/

namespace Sys2Proof.Machine

/-- LD_XNN (R77). -/
def execLdXNN (x : Reg) (nn : Byte) (s : State) : Result := .next (s.writeResult x nn)

/-- ADD_XNN (R78): modulo 256, no carry. -/
def execAddXNN (x : Reg) (nn : Byte) (s : State) : Result := .next (s.writeResult x (s.reg x + nn))

/-- LD_XY (R79). -/
def execLdXY (x y : Reg) (s : State) : Result := .next (s.writeResult x (s.reg y))

/-- OR_XY (R80). -/
def execOrXY (x y : Reg) (s : State) : Result := .next (s.writeResult x (s.reg x ||| s.reg y))

/-- AND_XY (R81). -/
def execAndXY (x y : Reg) (s : State) : Result := .next (s.writeResult x (s.reg x &&& s.reg y))

/-- XOR_XY (R82). -/
def execXorXY (x y : Reg) (s : State) : Result := .next (s.writeResult x (s.reg x ^^^ s.reg y))

/-- ADD_XY (R83): VF is the carry. -/
def execAddXY (x y : Reg) (s : State) : Result :=
  .next (s.writeResultFlag x (s.reg x + s.reg y) (carry (s.reg x) (s.reg y)))

/-- SUB_XY (R84): VF is 1 when there is no borrow. -/
def execSubXY (x y : Reg) (s : State) : Result :=
  .next (s.writeResultFlag x (s.reg x - s.reg y) (noBorrow (s.reg x) (s.reg y)))

/-- SHR_XY (R85): `V[x]` is shifted in place, and the y field is not read (C3, D14). -/
def execShrXY (x : Reg) (s : State) : Result := .next (s.writeResultFlag x (s.reg x >>> 1) (lowBit (s.reg x)))

/-- SUBN_XY (R86): the difference the other way round. -/
def execSubnXY (x y : Reg) (s : State) : Result :=
  .next (s.writeResultFlag x (s.reg y - s.reg x) (noBorrow (s.reg y) (s.reg x)))

/-- SHL_XY (R87): `V[x]` is shifted in place, and the y field is not read (D14). -/
def execShlXY (x : Reg) (s : State) : Result := .next (s.writeResultFlag x (s.reg x <<< 1) (highBit (s.reg x)))

/-- RND_XNN (R89): one draw, masked; the draw is a free value (log entry 1). -/
def execRndXNN (x : Reg) (nn : Byte) (s : State) : Result := .next (s.countDraw.writeResult x (s.randByte &&& nn))

end Sys2Proof.Machine
end

