-- ==== Sys2Proof/Machine/Dispatch.lean ====
section
/-! DEFINITION. The dispatcher's table of meanings: one arm per instruction. -/

namespace Sys2Proof.Machine

/-- Execute an instruction by its rule: everything of a step between the decoding and `Complete()` (R108, R111). -/
def exec (i : Instr) (s : State) : Host.Outcome State Fault Refusal :=
  match i with
  | .cls => Sys2Proof.Machine.execCls s
  | .ret => Sys2Proof.Machine.execRet s
  | .jpNNN nnn => Sys2Proof.Machine.execJpNNN nnn s
  | .callNNN nnn => Sys2Proof.Machine.execCallNNN nnn s
  | .seXNN x nn => Sys2Proof.Machine.execSeXNN x nn s
  | .sneXNN x nn => Sys2Proof.Machine.execSneXNN x nn s
  | .seXY x y _ => Sys2Proof.Machine.execSeXY x y s
  | .ldXNN x nn => Sys2Proof.Machine.execLdXNN x nn s
  | .addXNN x nn => Sys2Proof.Machine.execAddXNN x nn s
  | .ldXY x y => Sys2Proof.Machine.execLdXY x y s
  | .orXY x y => Sys2Proof.Machine.execOrXY x y s
  | .andXY x y => Sys2Proof.Machine.execAndXY x y s
  | .xorXY x y => Sys2Proof.Machine.execXorXY x y s
  | .addXY x y => Sys2Proof.Machine.execAddXY x y s
  | .subXY x y => Sys2Proof.Machine.execSubXY x y s
  | .shrXY x _ => Sys2Proof.Machine.execShrXY x s
  | .subnXY x y => Sys2Proof.Machine.execSubnXY x y s
  | .shlXY x _ => Sys2Proof.Machine.execShlXY x s
  | .sneXY x y _ => Sys2Proof.Machine.execSneXY x y s
  | .ldINNN nnn => Sys2Proof.Machine.execLdINNN nnn s
  | .jpV0NNN nnn => Sys2Proof.Machine.execJpV0NNN nnn s
  | .rndXNN x nn => Sys2Proof.Machine.execRndXNN x nn s
  | .drwXYN x y n => Sys2Proof.Machine.execDrwXYN x y n s
  | .skpX x => Sys2Proof.Machine.execSkpX x s
  | .sknpX x => Sys2Proof.Machine.execSknpX x s
  | .ldXDT x => Sys2Proof.Machine.execLdXDT x s
  | .ldXK x => Sys2Proof.Machine.execLdXK x s
  | .ldDTX x => Sys2Proof.Machine.execLdDTX x s
  | .ldSTX x => Sys2Proof.Machine.execLdSTX x s
  | .addIX x => Sys2Proof.Machine.execAddIX x s
  | .ldFX x => Sys2Proof.Machine.execLdFX x s
  | .ldBX x => Sys2Proof.Machine.execLdBX x s
  | .ldIX x => Sys2Proof.Machine.execLdIX x s
  | .ldXI x => Sys2Proof.Machine.execLdXI x s

end Sys2Proof.Machine
end

