-- ==== Sys2Proof/Machine/Cycle.lean ====
section
/-! DEFINITION. The execution cycle (spec/60_exceptions.md R108 to R113): taking the host's next input, the poll, fetch and
dispatch, completion, the key wait and the final states. Machine/Step.lean only calls it. -/

namespace Sys2Proof.Machine

/-! ### Inputs -/

/-- The host's input at this step; where none is listed, the loop steps with no event pending (R109; log entry 4). -/
def State.nextInput (s : State) : HostInput :=
  match s.inputs with
  | [] => .poll []
  | input :: _ => input

/-- The input at this step is taken. -/
def State.takeInput (s : State) : State := { s with inputs := s.inputs.tail }

/-- The poll's effect on the keypad: the events in order, up to a close (R109, R110). -/
def pollKeys : List HostEvent → Vector Bool Config.numKeys → Vector Bool Config.numKeys
  | [], keys => keys
  | .press k :: rest, keys => pollKeys rest (keys.set k true)
  | .release k :: rest, keys => pollKeys rest (keys.set k false)
  | .close :: _, keys => keys

/-- Whether a poll's events hold a close (R110). -/
def closes (events : List HostEvent) : Bool := events.any (· == .close)

/-- What every iteration of the loop does first: its input is taken, `refresh` goes low (R108), and the load window is shut
(R134). -/
def State.beginCycle (s : State) : State := { s.takeInput with refresh := false, boot := .loaded }

/-- `Reset()` on the `reset` command (R131). -/
def resetCycle (s : State) : Result := .next s.takeInput.resetBlock

/-- The `load` command, taken only directly after a reset (R133, R134, D37). -/
def loadCycle (image : List Byte) (s : State) : Result :=
  if s.boot = .fresh then .next (s.takeInput.loadProgram image) else .refused .loadNotAfterReset

/-! ### A running step -/

/-- After an instruction: `Complete()`, unless it suspended or faulted (R108, R112). -/
def State.settle (s : State) : State := if s.rs = .running then s.complete else s

/-- Carry an instruction's next state on through `settle`. -/
def settleResult : Result → Result
  | .next t => .next t.settle
  | .fault f => .fault f
  | .refused r => .refused r

/-- Check `PC`, fetch, decode and execute one instruction (R111), with the faults of that order (R118). -/
def fetchCycle (s : State) : Result :=
  if Config.memSize ≤ s.pc.toNat + 1 then .next (s.raise .programCounterOutOfBounds none (some s.pc.toNat))
  else
    match decodeWord s.fetchWord with
    | .ok i => settleResult (exec i s)
    | .error _ => .next (s.raise .invalidOpcode (some s.fetchWord) none)

/-- The `Running` step: poll, then quit on a close, else fetch and execute (R108, R109, R110). -/
def runningCycle (events : List HostEvent) (s : State) : Result :=
  let p := { s with keys := pollKeys events s.keys }
  if closes events then .next { p with rs := .quit } else fetchCycle p

/-! ### The key wait -/

/-- The completion of FX0A by a press of key `k` (R104, R113). -/
def State.completeKey (s : State) (x : Reg) (k : Key) : State :=
  { ((s.setKey k true).setReg x (byteOfKey k)).advance with rs := .running }.complete

/-- Events that a waiting step leaves: they are the first that the next step is given (log entry 4). -/
def State.leaveEvents (s : State) (rest : List HostEvent) : State :=
  match rest with
  | [] => s
  | e :: more => { s with inputs := .poll (e :: more) :: s.inputs }

/-- The `AwaitingKey(x)` step: at most one event is taken (R108, R113). -/
def waitingCycle (x : Reg) (events : List HostEvent) (s : State) : State :=
  match events with
  | [] => s
  | .release k :: rest => (s.leaveEvents rest).setKey k false
  | .press k :: rest => (s.leaveEvents rest).completeKey x k
  | .close :: _ => { s with rs := .quit }

/-! ### The step -/

/-- One iteration of the loop by run status (R108). `Quit` and `Faulted` are final: there is no step (R108, R117), nor is there
one after a failed load (R119). -/
def loopCycle (events : List HostEvent) (s : State) : Result :=
  match s.boot with
  | .outOfSpace len => .fault (.runNotStarted len)
  | .fresh | .loaded =>
    match s.rs with
    | .running => runningCycle events s.beginCycle
    | .awaitingKey x => .next (waitingCycle x events s.beginCycle)
    | .quit => .fault .runQuit
    | .faulted rec => .fault (.runFaulted rec)

/-- One step: the host's next input, whatever it is. -/
def cycle (s : State) : Result :=
  match s.nextInput with
  | .poll events => loopCycle events s
  | .reset => resetCycle s
  | .load image => loadCycle image s

/-- Place a word where the next step fetches, and let that step be a running one with no event pending. A `PC` above 0xFFE
fetches nothing (R37), so there nothing can be placed. -/
def State.placeWord (s : State) (w : Word) : State :=
  if Config.memSize ≤ s.pc.toNat + 1 then s
  else { s.storeBytes s.pc.toNat [highByte w, lowByte w] with rs := .running, boot := .loaded, inputs := [] }

end Sys2Proof.Machine
end

