-- ==== Sys2Proof/Machine/Step.lean ====
section
/-! DEFINITION. One step of the block, and the state whose next step fetches a given word. -/

namespace Sys2Proof.Machine

/-- One step (R108): the host's next input, then the iteration of the loop or the command it asks for. -/
def step (s : State) : Host.Outcome State Fault Refusal := cycle s

/-- `s` with the table's word `w` where the next step fetches (log entry 7): at `PC` and `PC + 1`, big-endian. -/
def State.withFetchWord (s : State) (nbits w : Nat) : State := s.placeWord (tableWord nbits w)

end Sys2Proof.Machine
end

