-- ==== Sys2Proof/Safety.lean ====
section
/-! DEFINITION. The terms claims are stated in: the parts of the state and what leaves them unchanged, which parts and registers
an instruction may write (R14, R16, R19, R35), the invariant of every run, and the spec's own readings of an illegal word (R61),
a key event (R109) and a sprite pixel (R99). -/

namespace Sys2Proof.Machine

/-! ### Frames -/

/-- The parts of the state, one name a field. -/
inductive StatePart where
  | v | index | pc | sp | stack | dt | st | fb | keys | mem | tc | rs | refresh | boot | params | inputs | draws
  deriving DecidableEq, Repr

/-- The part reads the same in both states; memory byte by byte, at every address. -/
def StatePart.Same (s t : State) : StatePart → Prop
  | .v => ∀ r, t.reg r = s.reg r
  | .index => t.index = s.index
  | .pc => t.pc = s.pc
  | .sp => t.sp = s.sp
  | .stack => t.stack = s.stack
  | .dt => t.dt = s.dt
  | .st => t.st = s.st
  | .fb => ∀ px py, t.pixel px py = s.pixel px py
  | .keys => ∀ k, t.key k = s.key k
  | .mem => ∀ a, t.readByte a = s.readByte a
  | .tc => t.tc = s.tc
  | .rs => t.rs = s.rs
  | .refresh => t.refresh = s.refresh
  | .boot => t.boot = s.boot
  | .params => t.params = s.params
  | .inputs => t.inputs = s.inputs
  | .draws => t.draws = s.draws

/-- Every part outside `changed` is the same in `t` as in `s`. -/
def Unchanged (changed : List StatePart) (s t : State) : Prop := ∀ p : StatePart, p ∉ changed → p.Same s t

/-- The parts that the spec lets an instruction write, its own fault included (R14, R16, R17, R19, R20, R21, R26, R27, R31,
R35, R115). No instruction writes the keypad (R22) or the cadence counter (R25). -/
def mayWrite : Instr → List StatePart
  | .cls => [.fb, .pc]
  | .ret => [.sp, .pc, .rs]
  | .jpNNN _ | .jpV0NNN _ => [.pc]
  | .callNNN _ => [.stack, .sp, .pc, .rs]
  | .seXNN _ _ | .sneXNN _ _ | .seXY _ _ _ | .sneXY _ _ _ => [.pc]
  | .ldXNN _ _ | .addXNN _ _ | .ldXY _ _ | .orXY _ _ | .andXY _ _ | .xorXY _ _ => [.v, .pc]
  | .addXY _ _ | .subXY _ _ | .shrXY _ _ | .subnXY _ _ | .shlXY _ _ => [.v, .pc]
  | .ldINNN _ | .addIX _ | .ldFX _ => [.index, .pc]
  | .rndXNN _ _ => [.v, .pc, .draws]
  | .drwXYN _ _ _ => [.fb, .v, .refresh, .pc, .rs]
  | .skpX _ | .sknpX _ => [.pc, .rs]
  | .ldXDT _ => [.v, .pc]
  | .ldXK _ => [.rs]
  | .ldDTX _ => [.dt, .pc]
  | .ldSTX _ => [.st, .pc]
  | .ldBX _ => [.mem, .pc, .rs]
  | .ldIX _ => [.mem, .index, .pc, .rs]
  | .ldXI _ => [.v, .index, .pc, .rs]

/-- The registers that the spec lets an instruction's execution write: its destination, and VF where it writes a flag (R14,
R16). FX0A writes its register only when the wait completes (R104). -/
def writesReg : Instr → Reg → Bool
  | .cls, _ | .ret, _ | .jpNNN _, _ | .callNNN _, _ | .jpV0NNN _, _ | .ldINNN _, _ => false
  | .seXNN _ _, _ | .sneXNN _ _, _ | .seXY _ _ _, _ | .sneXY _ _ _, _ | .skpX _, _ | .sknpX _, _ => false
  | .ldXNN x _, r | .addXNN x _, r | .ldXY x _, r | .orXY x _, r | .andXY x _, r | .xorXY x _, r => r == x
  | .addXY x _, r | .subXY x _, r | .shrXY x _, r | .subnXY x _, r | .shlXY x _, r => r == x || r == 0xF
  | .rndXNN x _, r | .ldXDT x, r => r == x
  | .drwXYN _ _ _, r => r == 0xF
  | .ldXI x, r => decide (r ≤ x)
  | .ldXK _, _ | .ldDTX _, _ | .ldSTX _, _ | .addIX _, _ | .ldFX _, _ | .ldBX _, _ | .ldIX _, _ => false

/-! ### The spec's own readings -/

/-- The word of `i` is the number `n`, and decoding it gives `i` back. -/
def EncodedAs (i : Instr) (n : Nat) : Prop := (encode i).toNat = n ∧ decodeWord (BitVec.ofNat 16 n) = .ok i

/-- The illegal words, group by group as R61 lists them. -/
def illegalWord (n : Nat) : Bool :=
  match n / 0x1000 with
  | 0x0 => n != 0x00E0 && n != 0x00EE
  | 0x8 => [0x8, 0x9, 0xA, 0xB, 0xC, 0xD, 0xF].contains (n % 0x10)
  | 0xE => !([0x9E, 0xA1].contains (n % 0x100))
  | 0xF => !([0x07, 0x0A, 0x15, 0x18, 0x1E, 0x29, 0x33, 0x55, 0x65].contains (n % 0x100))
  | _ => false

/-- What an event says of key `k`: pressed, released, or nothing (R109). -/
def HostEvent.setsKey (k : Key) : HostEvent → Option Bool
  | .press j => if j = k then some true else none
  | .release j => if j = k then some false else none
  | .close => none

/-- A set bit of the sprite of DXYN falls on the cell (px, py): row `r`, bit column `c` (R97, R99). -/
def State.spriteLit (s : State) (x y : Reg) (n : BitVec 4) (px : Fin 64) (py : Fin 32) : Prop :=
  ∃ r c : Nat, r < n.toNat ∧ c < 8 ∧ (s.readByte (s.baseAddr + r)).getLsbD (7 - c) = true ∧
    ((s.reg x).toNat + c) % 64 = px.val ∧ ((s.reg y).toNat + r) % 32 = py.val

/-! ### The invariant of every run -/

/-- The opcode and information a fault record carries are those R115 lists for its kind. -/
def FaultRecord.Shaped (rec : FaultRecord) : Prop :=
  match rec.kind with
  | .invalidOpcode => (∃ w, rec.opcode = some w ∧ illegalWord w.toNat = true) ∧ rec.info = none
  | .programCounterOutOfBounds => 0xFFE < rec.pc.toNat ∧ rec.opcode = none ∧ rec.info = some rec.pc.toNat
  | .stackOverflow => (∃ nnn, rec.opcode = some (encode (.callNNN nnn))) ∧ rec.info = none
  | .stackUnderflow => rec.opcode = some 0x00EE ∧ rec.info = none
  | .memoryOutOfBounds => (∃ w, rec.opcode = some w) ∧ ∃ a, rec.info = some a ∧ Config.memSize ≤ a
  | .keyIndexOutOfRange => (∃ w, rec.opcode = some w) ∧ ∃ k, rec.info = some k ∧ 15 < k

/-- What holds of the state in every run: memory is canonical; the divisor is positive and the cadence counter below it (R25);
`PC` and the stack entries keep the bounds of R32, and while FX0A waits `PC` is a fetch address; a fault record has the form of
R115 and the address in `PC` (R116); until a load is answered `Ok`, memory is as reset left it (R119, R134). -/
structure State.Inv (s : State) : Prop where
  memWf : Memory.wf s.params.font s.mem = true
  divisorPos : 0 < s.params.timerDivisor
  tcLt : s.tc < s.params.timerDivisor
  pcLe : s.pc.toNat ≤ 0x10FE
  stackLe : ∀ j : Fin 16, s.stack[j].toNat ≤ 0xFFE
  waitPc : ∀ x, s.rs = .awaitingKey x → s.pc.toNat ≤ 0xFFE
  recShaped : ∀ rec, s.rs = .faulted rec → rec.pc = s.pc ∧ rec.Shaped
  freshMem : s.boot = .fresh → s.mem = []
  failedMem : ∀ len, s.boot = .outOfSpace len → Config.maxProgram < len ∧ s.mem = []

end Sys2Proof.Machine
end

