-- ==== Sys2Proof/Certificates/Slice0/Obligations.lean ====
section
/-! DEFINITION. The statements for the provers. Each docstring names the rules of spec/ a statement formalises, and the spec's
own decision (D, spec/92_eei_decisions.md) or general knowledge (GK, spec/93_implementation_defined.md; log entry 5) where a
clause rests on one. -/

open Sys2Proof Sys2Proof.Machine

/-! ### Encoding (spec/30_encoding.md) -/

/-- Decoding the word of any instruction gives the instruction back, with every operand (R52, R54 to R59, GK1). -/
def Obligations.DecodeInvertsEncode : Prop :=
  ∀ i : Instr, decodeWord (encode i) = .ok i

/-- Every word that decodes is the word of what it decodes to: no bit is dropped (R52, R62, GK1). -/
def Obligations.EncodeInvertsDecode : Prop :=
  ∀ (w : Word) (i : Instr), decodeWord w = .ok i → encode i = w

/-- Every field is extracted from every word, at the bit range of R51, which is the source's `field` of R7. -/
def Obligations.FieldsAtTheirBitRanges : Prop :=
  ∀ w : Word,
    (fieldG w).toNat = w.toNat / 2 ^ 12 ∧ (fieldX w).val = w.toNat / 2 ^ 8 % 2 ^ 4 ∧
    (fieldY w).val = w.toNat / 2 ^ 4 % 2 ^ 4 ∧ (fieldN w).toNat = w.toNat % 2 ^ 4 ∧
    (fieldNN w).toNat = w.toNat % 2 ^ 8 ∧ (fieldNNN w).toNat = w.toNat % 2 ^ 12 ∧
    fieldG w = field w 0 4 ∧ fieldX w = (field w 4 4).toFin ∧ fieldY w = (field w 8 4).toFin ∧
    fieldN w = field w 12 4 ∧ fieldNN w = field w 8 8 ∧ fieldNNN w = field w 4 12

/-- The fields put back together reproduce the word (R63). -/
def Obligations.FieldsReassembleTheWord : Prop :=
  ∀ w : Word,
    w.toNat = (fieldG w).toNat * 0x1000 + (fieldX w).val * 0x100 + (fieldY w).val * 0x10 + (fieldN w).toNat ∧
    w.toNat = (fieldG w).toNat * 0x1000 + (fieldNNN w).toNat ∧
    w.toNat = (fieldG w).toNat * 0x1000 + (fieldX w).val * 0x100 + (fieldNN w).toNat

/-- Words written out from the encodings decode as the table V-DEC of spec/95_test_vectors.md says (R54 to R59, GK1). -/
def Obligations.SampleWordsDecode : Prop :=
  decodeWord 0x00E0 = .ok .cls ∧ decodeWord 0x00EE = .ok .ret ∧ decodeWord 0x0123 = .error (.invalidOpcode 0x0123) ∧
  decodeWord 0x1ABC = .ok (.jpNNN 0xABC) ∧ decodeWord 0x5121 = .ok (.seXY 1 2 1) ∧
  decodeWord 0x8008 = .error (.invalidOpcode 0x8008) ∧ decodeWord 0x800E = .ok (.shlXY 0 0) ∧
  decodeWord 0xB123 = .ok (.jpV0NNN 0x123) ∧ decodeWord 0xE1A1 = .ok (.sknpX 1) ∧
  decodeWord 0xF00A = .ok (.ldXK 0) ∧ decodeWord 0xFF65 = .ok (.ldXI 0xF)

/-- A word that the table does not route is illegal, group by group and in the counts of R61; and a running step that fetches
one raises InvalidOpcode(PC, w), writing nothing else but what the poll did (R61, GK1, D29). The step clause covers a step
before any load too, which is the model's choice of log entry 6. -/
def Obligations.IllegalWordsRaiseInvalidOpcode : Prop :=
  (∀ w : Word, illegalWord w.toNat = true ↔ decodeWord w = .error (.invalidOpcode w)) ∧
  (∀ w : Word, illegalWord w.toNat = false ↔ ∃ i, decodeWord w = .ok i) ∧
  (∀ g : Fin 16, ((List.range 0x1000).filter fun a => illegalWord (g.val * 0x1000 + a)).length =
    if g = 0x0 then 4094 else if g = 0x8 then 1792 else if g = 0xE then 4064 else if g = 0xF then 3952 else 0) ∧
  ∀ (s : State) (es : List HostEvent),
    s.nextInput = .poll es → closes es = false → s.rs = .running → (∀ len, s.boot ≠ .outOfSpace len) →
    s.pc.toNat + 1 < 4096 → illegalWord s.fetchWord.toNat = true →
    ∃ t, step s = .next t ∧
      t.rs = .faulted { kind := .invalidOpcode, pc := s.pc, opcode := some s.fetchWord, info := none } ∧
      t.keys = pollKeys es s.keys ∧ t.refresh = false ∧
      Unchanged [.rs, .keys, .refresh, .boot, .inputs] s t

/-! ### Control flow (spec/40_control_flow.md) -/

/-- RET (R68, D8, D9): `PC` is the popped entry plus 2, and the entry stays; with an empty stack, StackUnderflow. -/
def Obligations.RetPopsAndAddsTwo : Prop :=
  EncodedAs .ret 0x00EE ∧
  (∀ (s : State) (j : Fin 16), s.sp.val = j.val + 1 →
    ∃ t, exec .ret s = .next t ∧ t.sp.val = j.val ∧ t.pc = s.stack[j] + 2 ∧ Unchanged [.sp, .pc] s t) ∧
  ∀ s : State, s.sp.val = 0 →
    ∃ t, exec .ret s = .next t ∧
      t.rs = .faulted { kind := .stackUnderflow, pc := s.pc, opcode := some 0x00EE, info := none } ∧
      Unchanged [.rs] s t

/-- JP_NNN (R69). -/
def Obligations.JpSetsPc : Prop :=
  ∀ (nnn : BitVec 12) (s : State),
    EncodedAs (.jpNNN nnn) (0x1000 + nnn.toNat) ∧
    ∃ t, exec (.jpNNN nnn) s = .next t ∧ t.pc.toNat = nnn.toNat ∧ Unchanged [.pc] s t

/-- CALL_NNN (R70, D8, D9): the address of the CALL itself is pushed; with 16 entries in use, StackOverflow. -/
def Obligations.CallPushesItsOwnAddress : Prop :=
  (∀ nnn : BitVec 12, EncodedAs (.callNNN nnn) (0x2000 + nnn.toNat)) ∧
  (∀ (nnn : BitVec 12) (s : State) (j : Fin 16), s.sp.val = j.val →
    ∃ t, exec (.callNNN nnn) s = .next t ∧ t.sp.val = j.val + 1 ∧
      (∀ k : Fin 16, t.stack[k] = if k = j then s.pc else s.stack[k]) ∧ t.pc.toNat = nnn.toNat ∧
      Unchanged [.stack, .sp, .pc] s t) ∧
  ∀ (nnn : BitVec 12) (s : State), s.sp.val = 16 →
    ∃ t, exec (.callNNN nnn) s = .next t ∧
      t.rs = .faulted { kind := .stackOverflow, pc := s.pc, opcode := some (encode (.callNNN nnn)), info := none } ∧
      Unchanged [.rs] s t

/-- SE_XNN (R71) and SNE_XNN (R72). -/
def Obligations.SkipsOnImmediate : Prop :=
  ∀ (x : Reg) (nn : Byte) (s : State),
    EncodedAs (.seXNN x nn) (0x3000 + x.val * 0x100 + nn.toNat) ∧
    EncodedAs (.sneXNN x nn) (0x4000 + x.val * 0x100 + nn.toNat) ∧
    (∃ t, exec (.seXNN x nn) s = .next t ∧ t.pc = (if s.reg x = nn then s.pc + 4 else s.pc + 2) ∧ Unchanged [.pc] s t) ∧
    ∃ t, exec (.sneXNN x nn) s = .next t ∧ t.pc = (if s.reg x ≠ nn then s.pc + 4 else s.pc + 2) ∧ Unchanged [.pc] s t

/-- SE_XY (R73) and SNE_XY (R74), for every value of the low nibble (R56, D10). -/
def Obligations.SkipsOnRegister : Prop :=
  ∀ (x y : Reg) (z : BitVec 4) (s : State),
    EncodedAs (.seXY x y z) (0x5000 + x.val * 0x100 + y.val * 0x10 + z.toNat) ∧
    EncodedAs (.sneXY x y z) (0x9000 + x.val * 0x100 + y.val * 0x10 + z.toNat) ∧
    (∃ t, exec (.seXY x y z) s = .next t ∧ t.pc = (if s.reg x = s.reg y then s.pc + 4 else s.pc + 2) ∧
      Unchanged [.pc] s t) ∧
    ∃ t, exec (.sneXY x y z) s = .next t ∧ t.pc = (if s.reg x ≠ s.reg y then s.pc + 4 else s.pc + 2) ∧
      Unchanged [.pc] s t

/-- JP_V0NNN (R75): the sum is not reduced. -/
def Obligations.JpV0AddsRegisterZero : Prop :=
  ∀ (nnn : BitVec 12) (s : State),
    EncodedAs (.jpV0NNN nnn) (0xB000 + nnn.toNat) ∧
    ∃ t, exec (.jpV0NNN nnn) s = .next t ∧ t.pc.toNat = (s.reg 0).toNat + nnn.toNat ∧ Unchanged [.pc] s t

/-- A CALL followed by a RET that finds the stack as the CALL left it continues after the CALL, with the stack pointer as
before it (R68, W8), wherever the subroutine took the rest of the state. -/
def Obligations.CallThenReturnResumesAfterCall : Prop :=
  ∀ (nnn : BitVec 12) (s t u : State), s.sp.val < 16 → exec (.callNNN nnn) s = .next t →
    u.sp = t.sp → u.stack = t.stack →
    ∃ r, exec .ret u = .next r ∧ r.pc = s.pc + 2 ∧ r.sp = s.sp

/-! ### Register loads, arithmetic and bitwise operations (spec/41_register_alu.md) -/

/-- LD_XNN (R77). -/
def Obligations.LoadImmediate : Prop :=
  ∀ (x : Reg) (nn : Byte) (s : State),
    EncodedAs (.ldXNN x nn) (0x6000 + x.val * 0x100 + nn.toNat) ∧
    ∃ t, exec (.ldXNN x nn) s = .next t ∧ (∀ r, t.reg r = if r = x then nn else s.reg r) ∧ t.pc = s.pc + 2 ∧
      Unchanged [.v, .pc] s t

/-- ADD_XNN (R78): modulo 256, and no carry (D15). -/
def Obligations.AddImmediateWrapsWithoutCarry : Prop :=
  ∀ (x : Reg) (nn : Byte) (s : State),
    EncodedAs (.addXNN x nn) (0x7000 + x.val * 0x100 + nn.toNat) ∧
    ∃ t, exec (.addXNN x nn) s = .next t ∧
      (∀ r, (t.reg r).toNat = if r = x then ((s.reg x).toNat + nn.toNat) % 256 else (s.reg r).toNat) ∧
      t.pc = s.pc + 2 ∧ Unchanged [.v, .pc] s t

/-- LD_XY (R79), OR_XY (R80), AND_XY (R81) and XOR_XY (R82): no flag (D15). -/
def Obligations.MoveAndLogicLeaveTheFlag : Prop :=
  ∀ (x y : Reg) (s : State),
    EncodedAs (.ldXY x y) (0x8000 + x.val * 0x100 + y.val * 0x10) ∧
    EncodedAs (.orXY x y) (0x8001 + x.val * 0x100 + y.val * 0x10) ∧
    EncodedAs (.andXY x y) (0x8002 + x.val * 0x100 + y.val * 0x10) ∧
    EncodedAs (.xorXY x y) (0x8003 + x.val * 0x100 + y.val * 0x10) ∧
    (∃ t, exec (.ldXY x y) s = .next t ∧ (∀ r, t.reg r = if r = x then s.reg y else s.reg r) ∧ t.pc = s.pc + 2 ∧
      Unchanged [.v, .pc] s t) ∧
    (∃ t, exec (.orXY x y) s = .next t ∧ (∀ r, t.reg r = if r = x then s.reg x ||| s.reg y else s.reg r) ∧
      t.pc = s.pc + 2 ∧ Unchanged [.v, .pc] s t) ∧
    (∃ t, exec (.andXY x y) s = .next t ∧ (∀ r, t.reg r = if r = x then s.reg x &&& s.reg y else s.reg r) ∧
      t.pc = s.pc + 2 ∧ Unchanged [.v, .pc] s t) ∧
    ∃ t, exec (.xorXY x y) s = .next t ∧ (∀ r, t.reg r = if r = x then s.reg x ^^^ s.reg y else s.reg r) ∧
      t.pc = s.pc + 2 ∧ Unchanged [.v, .pc] s t

/-- ADD_XY (R83): the sum modulo 256, VF the carry; with `x = F` the carry remains (R15). -/
def Obligations.AddSetsCarry : Prop :=
  ∀ (x y : Reg) (s : State),
    EncodedAs (.addXY x y) (0x8004 + x.val * 0x100 + y.val * 0x10) ∧
    ∃ t, exec (.addXY x y) s = .next t ∧
      (∀ r, (t.reg r).toNat =
        if r = 0xF then (if (s.reg x).toNat + (s.reg y).toNat > 255 then 1 else 0)
        else if r = x then ((s.reg x).toNat + (s.reg y).toNat) % 256 else (s.reg r).toNat) ∧
      t.pc = s.pc + 2 ∧ Unchanged [.v, .pc] s t

/-- SUB_XY (R84): the difference modulo 256, VF 1 when there is no borrow. -/
def Obligations.SubSetsNoBorrow : Prop :=
  ∀ (x y : Reg) (s : State),
    EncodedAs (.subXY x y) (0x8005 + x.val * 0x100 + y.val * 0x10) ∧
    ∃ t, exec (.subXY x y) s = .next t ∧
      (∀ r, (t.reg r).toNat =
        if r = 0xF then (if (s.reg x).toNat ≥ (s.reg y).toNat then 1 else 0)
        else if r = x then ((s.reg x).toNat + 256 - (s.reg y).toNat) % 256 else (s.reg r).toNat) ∧
      t.pc = s.pc + 2 ∧ Unchanged [.v, .pc] s t

/-- SHR_XY (R85): `V[x]` halved, VF its old bit 0, the `y` field not read. -/
def Obligations.ShrShiftsVxRight : Prop :=
  ∀ (x y : Reg) (s : State),
    EncodedAs (.shrXY x y) (0x8006 + x.val * 0x100 + y.val * 0x10) ∧
    ∃ t, exec (.shrXY x y) s = .next t ∧
      (∀ r, (t.reg r).toNat =
        if r = 0xF then (s.reg x).toNat % 2 else if r = x then (s.reg x).toNat / 2 else (s.reg r).toNat) ∧
      t.pc = s.pc + 2 ∧ Unchanged [.v, .pc] s t

/-- SUBN_XY (R86, D13, GK3): the difference the other way round, VF 1 when there is no borrow. -/
def Obligations.SubnSetsNoBorrow : Prop :=
  ∀ (x y : Reg) (s : State),
    EncodedAs (.subnXY x y) (0x8007 + x.val * 0x100 + y.val * 0x10) ∧
    ∃ t, exec (.subnXY x y) s = .next t ∧
      (∀ r, (t.reg r).toNat =
        if r = 0xF then (if (s.reg y).toNat ≥ (s.reg x).toNat then 1 else 0)
        else if r = x then ((s.reg y).toNat + 256 - (s.reg x).toNat) % 256 else (s.reg r).toNat) ∧
      t.pc = s.pc + 2 ∧ Unchanged [.v, .pc] s t

/-- SHL_XY (R87, D14): `V[x]` doubled modulo 256, VF its old bit 7, the `y` field not read. -/
def Obligations.ShlShiftsVxLeft : Prop :=
  ∀ (x y : Reg) (s : State),
    EncodedAs (.shlXY x y) (0x800E + x.val * 0x100 + y.val * 0x10) ∧
    ∃ t, exec (.shlXY x y) s = .next t ∧
      (∀ r, (t.reg r).toNat =
        if r = 0xF then (s.reg x).toNat / 128
        else if r = x then (s.reg x).toNat * 2 % 256 else (s.reg r).toNat) ∧
      t.pc = s.pc + 2 ∧ Unchanged [.v, .pc] s t

/-- RND_XNN (R89): one draw, whatever byte it is (the free value of log entry 1), masked by `nn`. -/
def Obligations.RndMasksOneDraw : Prop :=
  ∀ (x : Reg) (nn : Byte) (s : State),
    EncodedAs (.rndXNN x nn) (0xC000 + x.val * 0x100 + nn.toNat) ∧
    ∃ t, exec (.rndXNN x nn) s = .next t ∧
      (∀ r, t.reg r = if r = x then Config.randByte s.draws &&& nn else s.reg r) ∧
      t.draws = s.draws + 1 ∧ t.pc = s.pc + 2 ∧ Unchanged [.v, .pc, .draws] s t

/-! ### Index register and memory (spec/42_index_memory.md) -/

/-- LD_INNN (R91). -/
def Obligations.LoadIndex : Prop :=
  ∀ (nnn : BitVec 12) (s : State),
    EncodedAs (.ldINNN nnn) (0xA000 + nnn.toNat) ∧
    ∃ t, exec (.ldINNN nnn) s = .next t ∧ t.index.toNat = nnn.toNat ∧ t.pc = s.pc + 2 ∧ Unchanged [.index, .pc] s t

/-- ADD_IX (R92, D16, GK1): modulo 65536, VF unchanged. -/
def Obligations.AddToIndexWraps : Prop :=
  ∀ (x : Reg) (s : State),
    EncodedAs (.addIX x) (0xF01E + x.val * 0x100) ∧
    ∃ t, exec (.addIX x) s = .next t ∧ t.index.toNat = (s.index.toNat + (s.reg x).toNat) % 65536 ∧ t.pc = s.pc + 2 ∧
      Unchanged [.index, .pc] s t

/-- LD_FX (R93, D17, GK1): five times the value, not masked. -/
def Obligations.FontAddressIsFiveTimes : Prop :=
  ∀ (x : Reg) (s : State),
    EncodedAs (.ldFX x) (0xF029 + x.val * 0x100) ∧
    ∃ t, exec (.ldFX x) s = .next t ∧ t.index.toNat = 5 * (s.reg x).toNat ∧ t.pc = s.pc + 2 ∧
      Unchanged [.index, .pc] s t

/-- LD_BX (R94, D18, GK1): the three decimal digits at `I`, `I + 1`, `I + 2`, every other byte as before; out of range,
MemoryOutOfBounds with the lowest failing address and nothing written (R90, D5, D28). -/
def Obligations.BcdStoresThreeDigits : Prop :=
  (∀ x : Reg, EncodedAs (.ldBX x) (0xF033 + x.val * 0x100)) ∧
  (∀ (x : Reg) (s : State), s.baseAddr + 2 < 4096 →
    ∃ t, exec (.ldBX x) s = .next t ∧
      (∀ a, (t.readByte a).toNat =
        if a = s.baseAddr then (s.reg x).toNat / 100
        else if a = s.baseAddr + 1 then (s.reg x).toNat / 10 % 10
        else if a = s.baseAddr + 2 then (s.reg x).toNat % 10 else (s.readByte a).toNat) ∧
      t.pc = s.pc + 2 ∧ Unchanged [.mem, .pc] s t) ∧
  ∀ (x : Reg) (s : State), s.baseAddr + 2 ≥ 4096 →
    ∃ t, exec (.ldBX x) s = .next t ∧
      t.rs = .faulted { kind := .memoryOutOfBounds, pc := s.pc, opcode := some (encode (.ldBX x)),
                        info := some (max s.index.toNat 4096) } ∧
      Unchanged [.rs] s t

/-- LD_IX (R95, GK1): `V[0]` .. `V[x]` at `I` onward, every byte outside them as before, `I` past them; out of range,
MemoryOutOfBounds and nothing written (R90, D5). -/
def Obligations.BlockStoreWritesAndAdvances : Prop :=
  (∀ x : Reg, EncodedAs (.ldIX x) (0xF055 + x.val * 0x100)) ∧
  (∀ (x : Reg) (s : State), s.baseAddr + x.val < 4096 →
    ∃ t, exec (.ldIX x) s = .next t ∧
      (∀ k : Reg, k ≤ x → t.readByte (s.baseAddr + k.val) = s.reg k) ∧
      (∀ a, a < s.baseAddr ∨ s.baseAddr + x.val < a → t.readByte a = s.readByte a) ∧
      t.index.toNat = (s.index.toNat + x.val + 1) % 65536 ∧ t.pc = s.pc + 2 ∧ Unchanged [.mem, .index, .pc] s t) ∧
  ∀ (x : Reg) (s : State), s.baseAddr + x.val ≥ 4096 →
    ∃ t, exec (.ldIX x) s = .next t ∧
      t.rs = .faulted { kind := .memoryOutOfBounds, pc := s.pc, opcode := some (encode (.ldIX x)),
                        info := some (max s.index.toNat 4096) } ∧
      Unchanged [.rs] s t

/-- LD_XI (R96, GK1): `V[0]` .. `V[x]` from `I` onward, the other registers and memory as before, `I` past them; out of range,
MemoryOutOfBounds and nothing written (R90, D5). -/
def Obligations.BlockLoadReadsAndAdvances : Prop :=
  (∀ x : Reg, EncodedAs (.ldXI x) (0xF065 + x.val * 0x100)) ∧
  (∀ (x : Reg) (s : State), s.baseAddr + x.val < 4096 →
    ∃ t, exec (.ldXI x) s = .next t ∧
      (∀ r : Reg, t.reg r = if r ≤ x then s.readByte (s.baseAddr + r.val) else s.reg r) ∧
      t.index.toNat = (s.index.toNat + x.val + 1) % 65536 ∧ t.pc = s.pc + 2 ∧ Unchanged [.v, .index, .pc] s t) ∧
  ∀ (x : Reg) (s : State), s.baseAddr + x.val ≥ 4096 →
    ∃ t, exec (.ldXI x) s = .next t ∧
      t.rs = .faulted { kind := .memoryOutOfBounds, pc := s.pc, opcode := some (encode (.ldXI x)),
                        info := some (max s.index.toNat 4096) } ∧
      Unchanged [.rs] s t

/-- A store is seen by the very next fetch (R47): after a block store at the next instruction's address, the word fetched
there is `V[0]` and `V[1]`. -/
def Obligations.StoreIsSeenByTheNextFetch : Prop :=
  ∀ (x : Reg) (s t : State), 1 ≤ x.val → s.index = s.pc + 2 → s.pc.toNat + 2 + x.val < 4096 →
    exec (.ldIX x) s = .next t →
    t.rs = s.rs ∧ t.fetchWord.toNat = (s.reg 0).toNat * 256 + (s.reg 1).toNat

/-! ### Display (spec/43_display.md) -/

/-- CLS (R98): every cell unlit, VF unchanged, no refresh pulse (D21). -/
def Obligations.ClsUnlightsEveryCell : Prop :=
  EncodedAs .cls 0x00E0 ∧
  ∀ s : State, ∃ t, exec .cls s = .next t ∧ (∀ px py, t.pixel px py = false) ∧ t.pc = s.pc + 2 ∧ Unchanged [.fb, .pc] s t

/-- DRW_XYN (R99, D5, D20, GK4): each cell is exclusive-ored with the sprite's bit that falls on it, coordinates wrapped; VF
is 1 exactly when a lit cell was turned off; the display is refreshed; out of range, MemoryOutOfBounds, nothing written and
no pulse. -/
def Obligations.DrawXorsTheSprite : Prop :=
  (∀ (x y : Reg) (n : BitVec 4), EncodedAs (.drwXYN x y n) (0xD000 + x.val * 0x100 + y.val * 0x10 + n.toNat)) ∧
  (∀ (x y : Reg) (n : BitVec 4) (s : State), (n.toNat = 0 ∨ s.baseAddr + n.toNat - 1 < 4096) →
    ∃ t, exec (.drwXYN x y n) s = .next t ∧
      (∀ px py, t.pixel px py = true ↔ (s.pixel px py = true ↔ ¬ s.spriteLit x y n px py)) ∧
      ((∃ px py, s.pixel px py = true ∧ s.spriteLit x y n px py) → t.reg 0xF = 1) ∧
      (¬ (∃ px py, s.pixel px py = true ∧ s.spriteLit x y n px py) → t.reg 0xF = 0) ∧
      (∀ r, r ≠ 0xF → t.reg r = s.reg r) ∧
      t.refresh = true ∧ t.pc = s.pc + 2 ∧ Unchanged [.fb, .v, .refresh, .pc] s t) ∧
  ∀ (x y : Reg) (n : BitVec 4) (s : State), 0 < n.toNat → s.baseAddr + n.toNat - 1 ≥ 4096 →
    ∃ t, exec (.drwXYN x y n) s = .next t ∧
      t.rs = .faulted { kind := .memoryOutOfBounds, pc := s.pc, opcode := some (encode (.drwXYN x y n)),
                        info := some (max s.index.toNat 4096) } ∧
      Unchanged [.rs] s t

/-- Drawing the same sprite twice at the same place leaves every cell as it was (R99, W6), and the second draw sets VF
exactly when a set bit of the sprite fell on a cell that was unlit before the first: W6 of spec/95_test_vectors.md says that
the source assumes unlit cells there (log entry 8). With `x` or `y` = F the first draw changes the coordinates, so those
forms are left out. -/
def Obligations.DrawTwiceRestoresTheDisplay : Prop :=
  ∀ (x y : Reg) (n : BitVec 4) (s t u : State), x ≠ 0xF → y ≠ 0xF → s.baseAddr + n.toNat ≤ 4096 →
    exec (.drwXYN x y n) s = .next t → exec (.drwXYN x y n) t = .next u →
    (∀ px py, u.pixel px py = s.pixel px py) ∧
    (u.reg 0xF = 1 ∨ u.reg 0xF = 0) ∧
    (u.reg 0xF = 1 ↔ ∃ px py, s.pixel px py = false ∧ s.spriteLit x y n px py)

/-! ### Keypad and timers (spec/44_keys_timers.md) -/

/-- SKP_X (R102, D22): skip when the key is pressed; a value above 15 is KeyIndexOutOfRange. -/
def Obligations.SkipIfKeyPressed : Prop :=
  (∀ x : Reg, EncodedAs (.skpX x) (0xE09E + x.val * 0x100)) ∧
  (∀ (x : Reg) (k : Key) (s : State), (s.reg x).toNat = k.val →
    ∃ t, exec (.skpX x) s = .next t ∧ t.pc = (if s.key k = true then s.pc + 4 else s.pc + 2) ∧ Unchanged [.pc] s t) ∧
  ∀ (x : Reg) (s : State), (s.reg x).toNat > 15 →
    ∃ t, exec (.skpX x) s = .next t ∧
      t.rs = .faulted { kind := .keyIndexOutOfRange, pc := s.pc, opcode := some (encode (.skpX x)),
                        info := some (s.reg x).toNat } ∧
      Unchanged [.rs] s t

/-- SKNP_X (R103, D22): skip when the key is not pressed; a value above 15 is KeyIndexOutOfRange. -/
def Obligations.SkipIfKeyNotPressed : Prop :=
  (∀ x : Reg, EncodedAs (.sknpX x) (0xE0A1 + x.val * 0x100)) ∧
  (∀ (x : Reg) (k : Key) (s : State), (s.reg x).toNat = k.val →
    ∃ t, exec (.sknpX x) s = .next t ∧ t.pc = (if s.key k = false then s.pc + 4 else s.pc + 2) ∧ Unchanged [.pc] s t) ∧
  ∀ (x : Reg) (s : State), (s.reg x).toNat > 15 →
    ∃ t, exec (.sknpX x) s = .next t ∧
      t.rs = .faulted { kind := .keyIndexOutOfRange, pc := s.pc, opcode := some (encode (.sknpX x)),
                        info := some (s.reg x).toNat } ∧
      Unchanged [.rs] s t

/-- LD_XK (R104, D23, D26, GK1, GK6): its execution suspends the block and writes nothing else; the first press during the wait
sets the key, loads its number, moves on and counts as one completed instruction; until then no register, no timer and no
counter changes, and a close ends the run without completing. Every waiting step takes its input and leaves `refresh` low
(R108) and the load window shut (log entries 4 and 6). -/
def Obligations.LdXKWaitsForAPress : Prop :=
  (∀ x : Reg, EncodedAs (.ldXK x) (0xF00A + x.val * 0x100)) ∧
  (∀ (x : Reg) (s : State),
    ∃ t, exec (.ldXK x) s = .next t ∧ t.rs = .awaitingKey x ∧ Unchanged [.rs] s t) ∧
  (∀ (x : Reg) (k : Key) (s : State), s.rs = .awaitingKey x → s.nextInput = .poll [.press k] →
    (∀ len, s.boot ≠ .outOfSpace len) →
    ∃ t, step s = .next t ∧ (∀ j, t.key j = if j = k then true else s.key j) ∧
      (∀ r, (t.reg r).toNat = if r = x then k.val else (s.reg r).toNat) ∧ t.pc = s.pc + 2 ∧ t.rs = .running ∧
      t.tc = (s.tc + 1) % s.params.timerDivisor ∧
      t.dt.toNat = (if t.tc = 0 then s.dt.toNat - 1 else s.dt.toNat) ∧
      t.st.toNat = (if t.tc = 0 then s.st.toNat - 1 else s.st.toNat) ∧
      t.refresh = false ∧ t.boot = .loaded ∧ t.inputs = s.inputs.tail ∧
      Unchanged [.keys, .v, .pc, .rs, .tc, .dt, .st, .refresh, .boot, .inputs] s t) ∧
  (∀ (x : Reg) (s : State), s.rs = .awaitingKey x → (∀ len, s.boot ≠ .outOfSpace len) →
    (s.nextInput = .poll [] ∨ ∃ k, s.nextInput = .poll [.release k]) →
    ∃ t, step s = .next t ∧ t.refresh = false ∧ t.boot = .loaded ∧ t.inputs = s.inputs.tail ∧
      Unchanged [.keys, .refresh, .boot, .inputs] s t) ∧
  ∀ (x : Reg) (s : State) (es : List HostEvent), s.rs = .awaitingKey x → (∀ len, s.boot ≠ .outOfSpace len) →
    s.nextInput = .poll (.close :: es) →
    ∃ t, step s = .next t ∧ t.rs = .quit ∧ t.refresh = false ∧ t.boot = .loaded ∧ t.inputs = s.inputs.tail ∧
      Unchanged [.rs, .refresh, .boot, .inputs] s t

/-- LD_XDT (R105), LD_DTX (R106) and LD_STX (R107) (GK1), before any decrement of the same step. -/
def Obligations.TimerMoves : Prop :=
  ∀ (x : Reg) (s : State),
    EncodedAs (.ldXDT x) (0xF007 + x.val * 0x100) ∧ EncodedAs (.ldDTX x) (0xF015 + x.val * 0x100) ∧
    EncodedAs (.ldSTX x) (0xF018 + x.val * 0x100) ∧
    (∃ t, exec (.ldXDT x) s = .next t ∧ (∀ r, t.reg r = if r = x then s.dt else s.reg r) ∧ t.pc = s.pc + 2 ∧
      Unchanged [.v, .pc] s t) ∧
    (∃ t, exec (.ldDTX x) s = .next t ∧ t.dt = s.reg x ∧ t.pc = s.pc + 2 ∧ Unchanged [.dt, .pc] s t) ∧
    ∃ t, exec (.ldSTX x) s = .next t ∧ t.st = s.reg x ∧ (t.tone = true ↔ (s.reg x).toNat ≠ 0) ∧ t.pc = s.pc + 2 ∧
      Unchanged [.st, .pc] s t

/-! ### The execution cycle (spec/60_exceptions.md) -/

/-- A running step executes the decoded instruction (R108, R111): the poll's events are applied, `refresh` goes low, and
when the bytes at `PC` decode to an instruction, the step is that instruction's execution, followed by `Complete()` unless
the block is then suspended or faulted. -/
def Obligations.StepRunsTheDecodedInstruction : Prop :=
  ∀ (s : State) (es : List HostEvent) (i : Instr),
    s.nextInput = .poll es → closes es = false → s.rs = .running → (∀ len, s.boot ≠ .outOfSpace len) →
    s.pc.toNat + 1 < 4096 → decodeBytes [s.readByte s.pc.toNat, s.readByte (s.pc.toNat + 1)] = .ok (i, []) →
    step s =
      match exec i { s with inputs := s.inputs.tail, keys := pollKeys es s.keys, refresh := false, boot := .loaded } with
      | .next t => .next (if t.rs = .running then t.complete else t)
      | .fault f => .fault f
      | .refused r => .refused r

/-- Instruction fetch merges the two bytes big-endian, and at `PC > 0xFFE` the step raises ProgramCounterOutOfBounds(PC)
instead, writing nothing else but what the poll did (R37, D3). The step clause covers a step before any load too, which is the
model's choice of log entry 6. -/
def Obligations.FetchIsBigEndianAndBounded : Prop :=
  (∀ s : State, s.fetchWord.toNat = (s.readByte s.pc.toNat).toNat * 256 + (s.readByte (s.pc.toNat + 1)).toNat) ∧
  ∀ (s : State) (es : List HostEvent),
    s.nextInput = .poll es → closes es = false → s.rs = .running → (∀ len, s.boot ≠ .outOfSpace len) →
    s.pc.toNat + 1 ≥ 4096 →
    ∃ t, step s = .next t ∧
      t.rs = .faulted { kind := .programCounterOutOfBounds, pc := s.pc, opcode := none, info := some s.pc.toNat } ∧
      t.keys = pollKeys es s.keys ∧ t.refresh = false ∧
      Unchanged [.rs, .keys, .refresh, .boot, .inputs] s t

/-- The poll applies the events in order up to a close: a key's flag is what the last event about it says, and without one it
keeps its value (R109, R110). -/
def Obligations.PollAppliesEventsInOrder : Prop :=
  ∀ (es : List HostEvent) (keys : Vector Bool 16) (k : Key),
    (pollKeys es keys)[k] = ((es.takeWhile (· != .close)).reverse.findSome? (HostEvent.setsKey k)).getD keys[k]

/-- A close at the poll ends the run before the fetch, whatever `PC` holds, and so does a close during a key wait; only the
events before it are applied and nothing else changes (R110, D34). The running clause covers a step before any load too, which
is the model's choice of log entry 6; the missing step at Quit is the outcome fault (log entry 9). -/
def Obligations.CloseQuitsBeforeTheFetch : Prop :=
  (∀ (s : State) (es : List HostEvent),
    s.nextInput = .poll es → closes es = true → s.rs = .running → (∀ len, s.boot ≠ .outOfSpace len) →
    ∃ t, step s = .next t ∧ t.rs = .quit ∧ t.keys = pollKeys es s.keys ∧ t.refresh = false ∧
      Unchanged [.rs, .keys, .refresh, .boot, .inputs] s t) ∧
  (∀ (s : State) (x : Reg) (es : List HostEvent),
    s.nextInput = .poll (.close :: es) → s.rs = .awaitingKey x → (∀ len, s.boot ≠ .outOfSpace len) →
    ∃ t, step s = .next t ∧ t.rs = .quit ∧ t.refresh = false ∧ Unchanged [.rs, .refresh, .boot, .inputs] s t) ∧
  ∀ (s : State) (es : List HostEvent),
    s.nextInput = .poll es → s.rs = .quit → (∀ len, s.boot ≠ .outOfSpace len) → step s = .fault .runQuit

/-- The key wait takes at most one event a step: none changes nothing, a release clears the key, a press completes FX0A and
runs `Complete()` once, a close quits; no instruction runs and no timer counts otherwise (R113, D23). Each of these steps takes
its input and leaves `refresh` low (R108, R27) and the load window shut (log entries 4 and 6). -/
def Obligations.KeyWaitByEvent : Prop :=
  ∀ (s : State) (x : Reg), s.rs = .awaitingKey x → (∀ len, s.boot ≠ .outOfSpace len) →
    (s.nextInput = .poll [] →
      ∃ t, step s = .next t ∧ t.refresh = false ∧ t.boot = .loaded ∧ t.inputs = s.inputs.tail ∧
        Unchanged [.refresh, .boot, .inputs] s t) ∧
    (∀ k, s.nextInput = .poll [.release k] →
      ∃ t, step s = .next t ∧ (∀ j, t.key j = if j = k then false else s.key j) ∧
        t.refresh = false ∧ t.boot = .loaded ∧ t.inputs = s.inputs.tail ∧
        Unchanged [.keys, .refresh, .boot, .inputs] s t) ∧
    (∀ k, s.nextInput = .poll [.press k] →
      ∃ t u, step s = .next t ∧ t = u.complete ∧ (∀ j, u.key j = if j = k then true else s.key j) ∧
        (∀ r, (u.reg r).toNat = if r = x then k.val else (s.reg r).toNat) ∧ u.pc = s.pc + 2 ∧ u.rs = .running ∧
        t.refresh = false ∧ t.boot = .loaded ∧ t.inputs = s.inputs.tail ∧
        Unchanged [.keys, .v, .pc, .rs, .refresh, .boot, .inputs] s u) ∧
    (s.nextInput = .poll [.close] →
      ∃ t, step s = .next t ∧ t.rs = .quit ∧ t.refresh = false ∧ t.boot = .loaded ∧ t.inputs = s.inputs.tail ∧
        Unchanged [.rs, .refresh, .boot, .inputs] s t)

/-- The model's choice of log entry 4, no rule of the spec: where the host gives a waiting step more than one event, the step
takes the first, as if it were alone, and the others are the first events of the next step. -/
def Obligations.WaitingStepLeavesLaterEvents : Prop :=
  ∀ (s : State) (x : Reg) (e e' : HostEvent) (es : List HostEvent), s.rs = .awaitingKey x →
    (∀ len, s.boot ≠ .outOfSpace len) → e ≠ .close → s.nextInput = .poll (e :: e' :: es) →
    ∃ t, step { s with inputs := .poll [e] :: s.inputs.tail } = .next t ∧
      step s = .next { t with inputs := .poll (e' :: es) :: s.inputs.tail }

/-- `Complete()`: the cadence counter counts modulo the divisor, and where it comes to 0 both timers go down by 1, never below
0; nothing else changes (R112, R114, D25, D36). -/
def Obligations.CompleteCountsAndDecrements : Prop :=
  ∀ s : State,
    s.complete.tc = (s.tc + 1) % s.params.timerDivisor ∧
    s.complete.dt.toNat = (if s.complete.tc = 0 then s.dt.toNat - 1 else s.dt.toNat) ∧
    s.complete.st.toNat = (if s.complete.tc = 0 then s.st.toNat - 1 else s.st.toNat) ∧
    Unchanged [.tc, .dt, .st] s s.complete

/-- `k` runs of `Complete()` in a row, with nothing between them, from a cadence counter of 0 (R112, R140, D25): the first
decrement is in the TIMER_DIVISOR-th run, and it is one decrement of both timers; before it, neither changes. No instruction is
executed between the runs, so none sets a timer. -/
def Obligations.OneDecrementAPeriod : Prop :=
  ∀ (s : State) (k : Nat), 0 < s.params.timerDivisor → s.tc = 0 → k ≤ s.params.timerDivisor →
    (State.complete^[k] s).tc = (if k = s.params.timerDivisor then 0 else k) ∧
    (State.complete^[k] s).dt.toNat = (if k = s.params.timerDivisor then s.dt.toNat - 1 else s.dt.toNat) ∧
    (State.complete^[k] s).st.toNat = (if k = s.params.timerDivisor then s.st.toNat - 1 else s.st.toNat)

/-- The codes of the faults, run-time and load-time (R115, D29). -/
def Obligations.FaultCodesAsListed : Prop :=
  FaultKind.invalidOpcode.code = 1 ∧ FaultKind.programCounterOutOfBounds.code = 2 ∧ FaultKind.stackOverflow.code = 3 ∧
  FaultKind.stackUnderflow.code = 4 ∧ FaultKind.memoryOutOfBounds.code = 5 ∧ FaultKind.keyIndexOutOfRange.code = 6 ∧
  ∀ len, (Boot.outOfSpace len).faultCode = some 16

/-- Faults are precise (R116, D28; the word: log entry 11): an instruction that leaves the block faulted has written nothing
but the run status, and the record holds its address, its own word and the one kind of fault it can raise (R118). -/
def Obligations.FaultsArePrecise : Prop :=
  ∀ (i : Instr) (s t : State) (rec : FaultRecord), s.rs = .running → exec i s = .next t → t.rs = .faulted rec →
    t = { s with rs := .faulted rec } ∧ rec.pc = s.pc ∧ rec.opcode = some (encode i) ∧
    ((i = .ret ∧ rec.kind = .stackUnderflow) ∨
      (∃ nnn, i = .callNNN nnn ∧ rec.kind = .stackOverflow) ∨
      (∃ x, (i = .skpX x ∨ i = .sknpX x) ∧ rec.kind = .keyIndexOutOfRange) ∨
      (∃ x, (i = .ldBX x ∨ i = .ldIX x ∨ i = .ldXI x) ∧ rec.kind = .memoryOutOfBounds) ∨
      ∃ x y n, i = .drwXYN x y n ∧ rec.kind = .memoryOutOfBounds)

/-- `Quit` and `Faulted` are final: there is no step (R108), and there is none after a failed load (R119); the missing step
is the outcome fault (log entry 9). -/
def Obligations.EndedRunsTakeNoStep : Prop :=
  ∀ (s : State) (es : List HostEvent), s.nextInput = .poll es →
    (∀ len, s.boot = .outOfSpace len → step s = .fault (.runNotStarted len)) ∧
    ((∀ len, s.boot ≠ .outOfSpace len) → s.rs = .quit → step s = .fault .runQuit) ∧
    ((∀ len, s.boot ≠ .outOfSpace len) → ∀ rec, s.rs = .faulted rec → step s = .fault (.runFaulted rec))

/-- Every instruction executes in every state: none is refused, and none stops the machine (R62, R115). -/
def Obligations.EveryInstructionAnswersANextState : Prop :=
  ∀ (i : Instr) (s : State), ∃ t, exec i s = .next t

/-! ### Rules about all instructions -/

/-- No instruction writes a part of the state that the spec does not let it write: the keypad and the cadence counter never
(R22, R25), memory only FX33 and FX55 (R35), the stack only CALL and RET (R19), the framebuffer only CLS and DXYN (R97), and
so on for every part. -/
def Obligations.InstructionsWriteOnlyTheirParts : Prop :=
  ∀ (i : Instr) (s t : State), exec i s = .next t → Unchanged (mayWrite i) s t

/-- No instruction changes a general register other than its destination, and VF where it writes a flag (R14, R16). -/
def Obligations.RegistersChangeOnlyByTheirWriters : Prop :=
  ∀ (i : Instr) (s t : State) (r : Reg), exec i s = .next t → writesReg i r = false → t.reg r = s.reg r

/-- No instruction reads the sound timer or the cadence counter (R20, R25, R114): two states that differ only there go to
states that differ only there. -/
def Obligations.SoundTimerAndCadenceAreNotRead : Prop :=
  ∀ (i : Instr) (s t : State) (b : Byte) (n : Nat), exec i s = .next t →
    ∃ u, exec i { s with st := b, tc := n } = .next u ∧ Unchanged [.st, .tc] t u

/-- The build parameters never change (R5, R125), and the invariant of every run is kept by every step, whatever the host
does: canonical memory, the cadence counter below the divisor (R25), the bounds of `PC` and of the stack entries (R32), the
form of fault records (R115, R116), and memory as reset left it until a load is answered `Ok` (R119). -/
def Obligations.EveryStepKeepsTheInvariant : Prop :=
  ∀ s t : State, s.Inv → step s = .next t → t.Inv ∧ t.params = s.params

/-- The invariant holds right after reset. -/
def Obligations.ResetMeetsTheInvariant : Prop := State.reset.Inv

/-! ### Reset and load (spec/70_reset_and_hazards.md) -/

/-- The `reset` command, in any state, leaves every piece of state at the value of R29 and R131 (D32), and the load window
open; what is left is the model's own (log entry 12). -/
def Obligations.ResetSetsEveryPieceOfState : Prop :=
  ∀ s : State, s.nextInput = .reset →
    ∃ t, step s = .next t ∧
      (∀ a, t.readByte a = if h : a < 80 then s.params.font[a] else 0) ∧ (∀ r, t.reg r = 0) ∧ t.index = 0 ∧
      t.pc = 0x200 ∧ t.sp.val = 0 ∧ (∀ j : Fin 16, t.stack[j] = 0) ∧ t.dt = 0 ∧ t.st = 0 ∧
      (∀ px py, t.pixel px py = false) ∧ (∀ k, t.key k = false) ∧ t.tc = 0 ∧ t.rs = .running ∧ t.refresh = false ∧
      t.boot = .fresh ∧ t.inputs = s.inputs.tail ∧ Unchanged [.mem, .v, .index, .pc, .sp, .stack, .dt, .st, .fb, .keys,
        .tc, .rs, .refresh, .boot, .inputs] s t

/-- The state right after reset holds the values of R29 (D32). -/
def Obligations.ResetStateHoldsTheResetValues : Prop :=
  (∀ a, State.reset.readByte a = if h : a < 80 then State.reset.params.font[a] else 0) ∧ (∀ r, State.reset.reg r = 0) ∧
  State.reset.index = 0 ∧ State.reset.pc = 0x200 ∧ State.reset.sp.val = 0 ∧ (∀ j : Fin 16, State.reset.stack[j] = 0) ∧
  State.reset.dt = 0 ∧ State.reset.st = 0 ∧ (∀ px py, State.reset.pixel px py = false) ∧
  (∀ k, State.reset.key k = false) ∧ State.reset.tc = 0 ∧ State.reset.rs = .running ∧ State.reset.refresh = false

/-- Reset is idempotent (R132). -/
def Obligations.ResetIsIdempotent : Prop :=
  ∀ s : State, s.resetBlock.resetBlock = s.resetBlock

/-- `loadProgram` (R133) copies an image of at most 3584 bytes to 0x200 and leaves all other memory; a longer one copies
nothing, and the run never starts. The command is taken off the coming inputs, and it is taken only directly after a reset
(R134, D37; log entries 4, 6 and 12): with the load window shut it is refused, and EveryPollStepShutsTheLoadWindow says that
every step of the loop shuts it. -/
def Obligations.LoadCopiesTheImage : Prop :=
  (∀ (s : State) (image : List Byte), s.nextInput = .load image → s.boot = .fresh → image.length ≤ 3584 →
    ∃ t, step s = .next t ∧ (∀ k (h : k < image.length), t.readByte (0x200 + k) = image[k]) ∧
      (∀ a, a < 0x200 ∨ 0x200 + image.length ≤ a → t.readByte a = s.readByte a) ∧ t.boot = .loaded ∧
      t.inputs = s.inputs.tail ∧ Unchanged [.mem, .boot, .inputs] s t) ∧
  (∀ (s : State) (image : List Byte), s.nextInput = .load image → s.boot = .fresh → image.length > 3584 →
    ∃ t, step s = .next t ∧ t.boot = .outOfSpace image.length ∧ t.inputs = s.inputs.tail ∧
      Unchanged [.boot, .inputs] s t ∧
      ∀ es, t.nextInput = .poll es → step t = .fault (.runNotStarted image.length)) ∧
  ∀ (s : State) (image : List Byte), s.nextInput = .load image → s.boot ≠ .fresh → step s = .refused .loadNotAfterReset

/-- Every step of the loop, in whatever status, shuts the load window (R134, D37; log entry 6) and takes its input off the
coming ones, unless a key wait leaves later events (log entry 4); and it leaves `refresh` high only where it executed DXYN
(R27, R126). -/
def Obligations.EveryPollStepShutsTheLoadWindow : Prop :=
  ∀ (s t : State) (es : List HostEvent), s.nextInput = .poll es → step s = .next t →
    t.boot = .loaded ∧
    (s.rs = .running ∨ es.length ≤ 1 → t.inputs = s.inputs.tail) ∧
    (t.refresh = true → s.rs = .running ∧ ∃ x y n, decodeWord s.fetchWord = .ok (.drwXYN x y n))
end

