-- ==== Sys2Proof/Laws/Decode.lean ====
section
/-! SUPPORT. What the fields of a word are as numbers, and what they are of an encoded word. -/

namespace Sys2Proof

/-! ### Fields as numbers (R51) -/

theorem field_toNat (w : Word) (start len : Nat) :
    (field w start len).toNat = w.toNat / 2 ^ (16 - start - len) % 2 ^ len := by
  simp [field, Nat.shiftRight_eq_div_pow]

theorem fieldG_toNat (w : Word) : (fieldG w).toNat = w.toNat / 0x1000 := by
  have := w.isLt
  rw [fieldG, field_toNat]; omega

theorem fieldX_val (w : Word) : (fieldX w).val = w.toNat / 0x100 % 0x10 := field_toNat w 4 4

theorem fieldY_val (w : Word) : (fieldY w).val = w.toNat / 0x10 % 0x10 := field_toNat w 8 4

theorem fieldN_toNat (w : Word) : (fieldN w).toNat = w.toNat % 0x10 := by
  rw [fieldN, field_toNat]; omega

theorem fieldNN_toNat (w : Word) : (fieldNN w).toNat = w.toNat % 0x100 := by
  rw [fieldNN, field_toNat]; omega

theorem fieldNNN_toNat (w : Word) : (fieldNNN w).toNat = w.toNat % 0x1000 := by
  rw [fieldNNN, field_toNat]; omega

/-! ### Encoded words as numbers -/

theorem packNNN_toNat {g : Nat} (hg : g < 16) (nnn : BitVec 12) :
    (packNNN g nnn).toNat = g * 0x1000 + nnn.toNat := by
  have := nnn.isLt
  rw [packNNN, BitVec.toNat_ofNat]; omega

theorem packXNN_toNat {g : Nat} (hg : g < 16) (x : Reg) (nn : Byte) :
    (packXNN g x nn).toNat = g * 0x1000 + x.val * 0x100 + nn.toNat := by
  have := nn.isLt; have := x.isLt
  rw [packXNN, BitVec.toNat_ofNat]; omega

theorem packXYN_toNat {g : Nat} (hg : g < 16) (x y : Reg) (n : BitVec 4) :
    (packXYN g x y n).toNat = g * 0x1000 + x.val * 0x100 + y.val * 0x10 + n.toNat := by
  have := n.isLt; have := x.isLt; have := y.isLt
  rw [packXYN, BitVec.toNat_ofNat]; omega

/-! ### Fields of encoded words -/

theorem fieldG_packNNN {g : Nat} (hg : g < 16) (nnn : BitVec 12) : (fieldG (packNNN g nnn)).toNat = g := by
  have := nnn.isLt
  rw [fieldG_toNat, packNNN_toNat hg]; omega

theorem fieldNNN_packNNN {g : Nat} (hg : g < 16) (nnn : BitVec 12) : fieldNNN (packNNN g nnn) = nnn := by
  apply BitVec.eq_of_toNat_eq
  have := nnn.isLt
  rw [fieldNNN_toNat, packNNN_toNat hg]; omega

theorem fieldG_packXNN {g : Nat} (hg : g < 16) (x : Reg) (nn : Byte) : (fieldG (packXNN g x nn)).toNat = g := by
  have := nn.isLt; have := x.isLt
  rw [fieldG_toNat, packXNN_toNat hg]; omega

theorem fieldX_packXNN {g : Nat} (hg : g < 16) (x : Reg) (nn : Byte) : fieldX (packXNN g x nn) = x := by
  apply Fin.ext
  have := nn.isLt; have := x.isLt
  rw [fieldX_val, packXNN_toNat hg]; omega

theorem fieldNN_packXNN {g : Nat} (hg : g < 16) (x : Reg) (nn : Byte) : fieldNN (packXNN g x nn) = nn := by
  apply BitVec.eq_of_toNat_eq
  have := nn.isLt; have := x.isLt
  rw [fieldNN_toNat, packXNN_toNat hg]; omega

theorem fieldG_packXYN {g : Nat} (hg : g < 16) (x y : Reg) (n : BitVec 4) : (fieldG (packXYN g x y n)).toNat = g := by
  have := n.isLt; have := x.isLt; have := y.isLt
  rw [fieldG_toNat, packXYN_toNat hg]; omega

theorem fieldX_packXYN {g : Nat} (hg : g < 16) (x y : Reg) (n : BitVec 4) : fieldX (packXYN g x y n) = x := by
  apply Fin.ext
  have := n.isLt; have := x.isLt; have := y.isLt
  rw [fieldX_val, packXYN_toNat hg]; omega

theorem fieldY_packXYN {g : Nat} (hg : g < 16) (x y : Reg) (n : BitVec 4) : fieldY (packXYN g x y n) = y := by
  apply Fin.ext
  have := n.isLt; have := x.isLt; have := y.isLt
  rw [fieldY_val, packXYN_toNat hg]; omega

theorem fieldN_packXYN {g : Nat} (hg : g < 16) (x y : Reg) (n : BitVec 4) : fieldN (packXYN g x y n) = n := by
  apply BitVec.eq_of_toNat_eq
  have := n.isLt; have := x.isLt; have := y.isLt
  rw [fieldN_toNat, packXYN_toNat hg]; omega

/-! ### Bytes of words (R40) -/

theorem mergeBytes_toNat (hi lo : Byte) : (mergeBytes hi lo).toNat = hi.toNat * 256 + lo.toNat := by
  have := hi.isLt; have := lo.isLt
  rw [mergeBytes, BitVec.toNat_ofNat]; omega

theorem mergeBytes_high_low (w : Word) : mergeBytes (highByte w) (lowByte w) = w := by
  apply BitVec.eq_of_toNat_eq
  have := w.isLt
  rw [mergeBytes_toNat, highByte, lowByte, field_toNat, field_toNat]; omega

/-- Decoding bytes is decoding the word they merge to (R37, R50). -/
theorem decodeBytes_cons (hi lo : Byte) (rest : List Byte) :
    decodeBytes (hi :: lo :: rest) =
      match decodeWord (mergeBytes hi lo) with | .ok i => .ok (i, rest) | .error e => .error e := rfl

end Sys2Proof
end

