-- ==== Sys2Proof/Laws/State.lean ====
section
/-! SUPPORT. For every update of the state, what each field and each observation of the updated state is. -/

namespace Sys2Proof.Machine

/-! ### Constants and ranges -/

@[simp] theorem instrStep_one : instrStep 1 = 2 := rfl
@[simp] theorem instrStep_two : instrStep 2 = 4 := rfl

/-- The range of `SP` in plain numbers (R19). -/
theorem State.sp_lt (s : State) : s.sp.val < 17 := s.sp.isLt

/-! ### setReg -/

@[simp] theorem State.setReg_v (s : State) (x : Reg) (b : Byte) : (s.setReg x b).v = s.v.set x b := rfl
@[simp] theorem State.setReg_index (s : State) (x : Reg) (b : Byte) : (s.setReg x b).index = s.index := rfl
@[simp] theorem State.setReg_pc (s : State) (x : Reg) (b : Byte) : (s.setReg x b).pc = s.pc := rfl
@[simp] theorem State.setReg_sp (s : State) (x : Reg) (b : Byte) : (s.setReg x b).sp = s.sp := rfl
@[simp] theorem State.setReg_stack (s : State) (x : Reg) (b : Byte) : (s.setReg x b).stack = s.stack := rfl
@[simp] theorem State.setReg_dt (s : State) (x : Reg) (b : Byte) : (s.setReg x b).dt = s.dt := rfl
@[simp] theorem State.setReg_st (s : State) (x : Reg) (b : Byte) : (s.setReg x b).st = s.st := rfl
@[simp] theorem State.setReg_fb (s : State) (x : Reg) (b : Byte) : (s.setReg x b).fb = s.fb := rfl
@[simp] theorem State.setReg_keys (s : State) (x : Reg) (b : Byte) : (s.setReg x b).keys = s.keys := rfl
@[simp] theorem State.setReg_mem (s : State) (x : Reg) (b : Byte) : (s.setReg x b).mem = s.mem := rfl
@[simp] theorem State.setReg_tc (s : State) (x : Reg) (b : Byte) : (s.setReg x b).tc = s.tc := rfl
@[simp] theorem State.setReg_rs (s : State) (x : Reg) (b : Byte) : (s.setReg x b).rs = s.rs := rfl
@[simp] theorem State.setReg_refresh (s : State) (x : Reg) (b : Byte) : (s.setReg x b).refresh = s.refresh := rfl
@[simp] theorem State.setReg_boot (s : State) (x : Reg) (b : Byte) : (s.setReg x b).boot = s.boot := rfl
@[simp] theorem State.setReg_params (s : State) (x : Reg) (b : Byte) : (s.setReg x b).params = s.params := rfl
@[simp] theorem State.setReg_inputs (s : State) (x : Reg) (b : Byte) : (s.setReg x b).inputs = s.inputs := rfl
@[simp] theorem State.setReg_draws (s : State) (x : Reg) (b : Byte) : (s.setReg x b).draws = s.draws := rfl
@[simp] theorem State.setReg_key (s : State) (x : Reg) (b : Byte) (j : Key) : (s.setReg x b).key j = s.key j := rfl
@[simp] theorem State.setReg_pixel (s : State) (x : Reg) (b : Byte) (px : Fin 64) (py : Fin 32) : (s.setReg x b).pixel px py = s.pixel px py := rfl
@[simp] theorem State.setReg_readByte (s : State) (x : Reg) (b : Byte) (a' : Nat) : (s.setReg x b).readByte a' = s.readByte a' := rfl

/-! ### setIndex -/

@[simp] theorem State.setIndex_v (s : State) (a : Word) : (s.setIndex a).v = s.v := rfl
@[simp] theorem State.setIndex_index (s : State) (a : Word) : (s.setIndex a).index = a := rfl
@[simp] theorem State.setIndex_pc (s : State) (a : Word) : (s.setIndex a).pc = s.pc := rfl
@[simp] theorem State.setIndex_sp (s : State) (a : Word) : (s.setIndex a).sp = s.sp := rfl
@[simp] theorem State.setIndex_stack (s : State) (a : Word) : (s.setIndex a).stack = s.stack := rfl
@[simp] theorem State.setIndex_dt (s : State) (a : Word) : (s.setIndex a).dt = s.dt := rfl
@[simp] theorem State.setIndex_st (s : State) (a : Word) : (s.setIndex a).st = s.st := rfl
@[simp] theorem State.setIndex_fb (s : State) (a : Word) : (s.setIndex a).fb = s.fb := rfl
@[simp] theorem State.setIndex_keys (s : State) (a : Word) : (s.setIndex a).keys = s.keys := rfl
@[simp] theorem State.setIndex_mem (s : State) (a : Word) : (s.setIndex a).mem = s.mem := rfl
@[simp] theorem State.setIndex_tc (s : State) (a : Word) : (s.setIndex a).tc = s.tc := rfl
@[simp] theorem State.setIndex_rs (s : State) (a : Word) : (s.setIndex a).rs = s.rs := rfl
@[simp] theorem State.setIndex_refresh (s : State) (a : Word) : (s.setIndex a).refresh = s.refresh := rfl
@[simp] theorem State.setIndex_boot (s : State) (a : Word) : (s.setIndex a).boot = s.boot := rfl
@[simp] theorem State.setIndex_params (s : State) (a : Word) : (s.setIndex a).params = s.params := rfl
@[simp] theorem State.setIndex_inputs (s : State) (a : Word) : (s.setIndex a).inputs = s.inputs := rfl
@[simp] theorem State.setIndex_draws (s : State) (a : Word) : (s.setIndex a).draws = s.draws := rfl
@[simp] theorem State.setIndex_reg (s : State) (a : Word) (r : Reg) : (s.setIndex a).reg r = s.reg r := rfl
@[simp] theorem State.setIndex_key (s : State) (a : Word) (j : Key) : (s.setIndex a).key j = s.key j := rfl
@[simp] theorem State.setIndex_pixel (s : State) (a : Word) (px : Fin 64) (py : Fin 32) : (s.setIndex a).pixel px py = s.pixel px py := rfl
@[simp] theorem State.setIndex_readByte (s : State) (a : Word) (a' : Nat) : (s.setIndex a).readByte a' = s.readByte a' := rfl

/-! ### setPc -/

@[simp] theorem State.setPc_v (s : State) (a : Word) : (s.setPc a).v = s.v := rfl
@[simp] theorem State.setPc_index (s : State) (a : Word) : (s.setPc a).index = s.index := rfl
@[simp] theorem State.setPc_pc (s : State) (a : Word) : (s.setPc a).pc = a := rfl
@[simp] theorem State.setPc_sp (s : State) (a : Word) : (s.setPc a).sp = s.sp := rfl
@[simp] theorem State.setPc_stack (s : State) (a : Word) : (s.setPc a).stack = s.stack := rfl
@[simp] theorem State.setPc_dt (s : State) (a : Word) : (s.setPc a).dt = s.dt := rfl
@[simp] theorem State.setPc_st (s : State) (a : Word) : (s.setPc a).st = s.st := rfl
@[simp] theorem State.setPc_fb (s : State) (a : Word) : (s.setPc a).fb = s.fb := rfl
@[simp] theorem State.setPc_keys (s : State) (a : Word) : (s.setPc a).keys = s.keys := rfl
@[simp] theorem State.setPc_mem (s : State) (a : Word) : (s.setPc a).mem = s.mem := rfl
@[simp] theorem State.setPc_tc (s : State) (a : Word) : (s.setPc a).tc = s.tc := rfl
@[simp] theorem State.setPc_rs (s : State) (a : Word) : (s.setPc a).rs = s.rs := rfl
@[simp] theorem State.setPc_refresh (s : State) (a : Word) : (s.setPc a).refresh = s.refresh := rfl
@[simp] theorem State.setPc_boot (s : State) (a : Word) : (s.setPc a).boot = s.boot := rfl
@[simp] theorem State.setPc_params (s : State) (a : Word) : (s.setPc a).params = s.params := rfl
@[simp] theorem State.setPc_inputs (s : State) (a : Word) : (s.setPc a).inputs = s.inputs := rfl
@[simp] theorem State.setPc_draws (s : State) (a : Word) : (s.setPc a).draws = s.draws := rfl
@[simp] theorem State.setPc_reg (s : State) (a : Word) (r : Reg) : (s.setPc a).reg r = s.reg r := rfl
@[simp] theorem State.setPc_key (s : State) (a : Word) (j : Key) : (s.setPc a).key j = s.key j := rfl
@[simp] theorem State.setPc_pixel (s : State) (a : Word) (px : Fin 64) (py : Fin 32) : (s.setPc a).pixel px py = s.pixel px py := rfl
@[simp] theorem State.setPc_readByte (s : State) (a : Word) (a' : Nat) : (s.setPc a).readByte a' = s.readByte a' := rfl

/-! ### advance -/

@[simp] theorem State.advance_v (s : State) : (s.advance).v = s.v := rfl
@[simp] theorem State.advance_index (s : State) : (s.advance).index = s.index := rfl
@[simp] theorem State.advance_pc (s : State) : (s.advance).pc = s.pc + 2 := rfl
@[simp] theorem State.advance_sp (s : State) : (s.advance).sp = s.sp := rfl
@[simp] theorem State.advance_stack (s : State) : (s.advance).stack = s.stack := rfl
@[simp] theorem State.advance_dt (s : State) : (s.advance).dt = s.dt := rfl
@[simp] theorem State.advance_st (s : State) : (s.advance).st = s.st := rfl
@[simp] theorem State.advance_fb (s : State) : (s.advance).fb = s.fb := rfl
@[simp] theorem State.advance_keys (s : State) : (s.advance).keys = s.keys := rfl
@[simp] theorem State.advance_mem (s : State) : (s.advance).mem = s.mem := rfl
@[simp] theorem State.advance_tc (s : State) : (s.advance).tc = s.tc := rfl
@[simp] theorem State.advance_rs (s : State) : (s.advance).rs = s.rs := rfl
@[simp] theorem State.advance_refresh (s : State) : (s.advance).refresh = s.refresh := rfl
@[simp] theorem State.advance_boot (s : State) : (s.advance).boot = s.boot := rfl
@[simp] theorem State.advance_params (s : State) : (s.advance).params = s.params := rfl
@[simp] theorem State.advance_inputs (s : State) : (s.advance).inputs = s.inputs := rfl
@[simp] theorem State.advance_draws (s : State) : (s.advance).draws = s.draws := rfl
@[simp] theorem State.advance_reg (s : State) (r : Reg) : (s.advance).reg r = s.reg r := rfl
@[simp] theorem State.advance_key (s : State) (j : Key) : (s.advance).key j = s.key j := rfl
@[simp] theorem State.advance_pixel (s : State) (px : Fin 64) (py : Fin 32) : (s.advance).pixel px py = s.pixel px py := rfl
@[simp] theorem State.advance_readByte (s : State) (a' : Nat) : (s.advance).readByte a' = s.readByte a' := rfl

/-! ### skipIf -/

@[simp] theorem State.skipIf_v (s : State) (c : Bool) : (s.skipIf c).v = s.v := rfl
@[simp] theorem State.skipIf_index (s : State) (c : Bool) : (s.skipIf c).index = s.index := rfl
@[simp] theorem State.skipIf_pc (s : State) (c : Bool) : (s.skipIf c).pc = if c then s.pc + 4 else s.pc + 2 := rfl
@[simp] theorem State.skipIf_sp (s : State) (c : Bool) : (s.skipIf c).sp = s.sp := rfl
@[simp] theorem State.skipIf_stack (s : State) (c : Bool) : (s.skipIf c).stack = s.stack := rfl
@[simp] theorem State.skipIf_dt (s : State) (c : Bool) : (s.skipIf c).dt = s.dt := rfl
@[simp] theorem State.skipIf_st (s : State) (c : Bool) : (s.skipIf c).st = s.st := rfl
@[simp] theorem State.skipIf_fb (s : State) (c : Bool) : (s.skipIf c).fb = s.fb := rfl
@[simp] theorem State.skipIf_keys (s : State) (c : Bool) : (s.skipIf c).keys = s.keys := rfl
@[simp] theorem State.skipIf_mem (s : State) (c : Bool) : (s.skipIf c).mem = s.mem := rfl
@[simp] theorem State.skipIf_tc (s : State) (c : Bool) : (s.skipIf c).tc = s.tc := rfl
@[simp] theorem State.skipIf_rs (s : State) (c : Bool) : (s.skipIf c).rs = s.rs := rfl
@[simp] theorem State.skipIf_refresh (s : State) (c : Bool) : (s.skipIf c).refresh = s.refresh := rfl
@[simp] theorem State.skipIf_boot (s : State) (c : Bool) : (s.skipIf c).boot = s.boot := rfl
@[simp] theorem State.skipIf_params (s : State) (c : Bool) : (s.skipIf c).params = s.params := rfl
@[simp] theorem State.skipIf_inputs (s : State) (c : Bool) : (s.skipIf c).inputs = s.inputs := rfl
@[simp] theorem State.skipIf_draws (s : State) (c : Bool) : (s.skipIf c).draws = s.draws := rfl
@[simp] theorem State.skipIf_reg (s : State) (c : Bool) (r : Reg) : (s.skipIf c).reg r = s.reg r := rfl
@[simp] theorem State.skipIf_key (s : State) (c : Bool) (j : Key) : (s.skipIf c).key j = s.key j := rfl
@[simp] theorem State.skipIf_pixel (s : State) (c : Bool) (px : Fin 64) (py : Fin 32) : (s.skipIf c).pixel px py = s.pixel px py := rfl
@[simp] theorem State.skipIf_readByte (s : State) (c : Bool) (a' : Nat) : (s.skipIf c).readByte a' = s.readByte a' := rfl

/-! ### setDelay -/

@[simp] theorem State.setDelay_v (s : State) (b : Byte) : (s.setDelay b).v = s.v := rfl
@[simp] theorem State.setDelay_index (s : State) (b : Byte) : (s.setDelay b).index = s.index := rfl
@[simp] theorem State.setDelay_pc (s : State) (b : Byte) : (s.setDelay b).pc = s.pc := rfl
@[simp] theorem State.setDelay_sp (s : State) (b : Byte) : (s.setDelay b).sp = s.sp := rfl
@[simp] theorem State.setDelay_stack (s : State) (b : Byte) : (s.setDelay b).stack = s.stack := rfl
@[simp] theorem State.setDelay_dt (s : State) (b : Byte) : (s.setDelay b).dt = b := rfl
@[simp] theorem State.setDelay_st (s : State) (b : Byte) : (s.setDelay b).st = s.st := rfl
@[simp] theorem State.setDelay_fb (s : State) (b : Byte) : (s.setDelay b).fb = s.fb := rfl
@[simp] theorem State.setDelay_keys (s : State) (b : Byte) : (s.setDelay b).keys = s.keys := rfl
@[simp] theorem State.setDelay_mem (s : State) (b : Byte) : (s.setDelay b).mem = s.mem := rfl
@[simp] theorem State.setDelay_tc (s : State) (b : Byte) : (s.setDelay b).tc = s.tc := rfl
@[simp] theorem State.setDelay_rs (s : State) (b : Byte) : (s.setDelay b).rs = s.rs := rfl
@[simp] theorem State.setDelay_refresh (s : State) (b : Byte) : (s.setDelay b).refresh = s.refresh := rfl
@[simp] theorem State.setDelay_boot (s : State) (b : Byte) : (s.setDelay b).boot = s.boot := rfl
@[simp] theorem State.setDelay_params (s : State) (b : Byte) : (s.setDelay b).params = s.params := rfl
@[simp] theorem State.setDelay_inputs (s : State) (b : Byte) : (s.setDelay b).inputs = s.inputs := rfl
@[simp] theorem State.setDelay_draws (s : State) (b : Byte) : (s.setDelay b).draws = s.draws := rfl
@[simp] theorem State.setDelay_reg (s : State) (b : Byte) (r : Reg) : (s.setDelay b).reg r = s.reg r := rfl
@[simp] theorem State.setDelay_key (s : State) (b : Byte) (j : Key) : (s.setDelay b).key j = s.key j := rfl
@[simp] theorem State.setDelay_pixel (s : State) (b : Byte) (px : Fin 64) (py : Fin 32) : (s.setDelay b).pixel px py = s.pixel px py := rfl
@[simp] theorem State.setDelay_readByte (s : State) (b : Byte) (a' : Nat) : (s.setDelay b).readByte a' = s.readByte a' := rfl

/-! ### setSound -/

@[simp] theorem State.setSound_v (s : State) (b : Byte) : (s.setSound b).v = s.v := rfl
@[simp] theorem State.setSound_index (s : State) (b : Byte) : (s.setSound b).index = s.index := rfl
@[simp] theorem State.setSound_pc (s : State) (b : Byte) : (s.setSound b).pc = s.pc := rfl
@[simp] theorem State.setSound_sp (s : State) (b : Byte) : (s.setSound b).sp = s.sp := rfl
@[simp] theorem State.setSound_stack (s : State) (b : Byte) : (s.setSound b).stack = s.stack := rfl
@[simp] theorem State.setSound_dt (s : State) (b : Byte) : (s.setSound b).dt = s.dt := rfl
@[simp] theorem State.setSound_st (s : State) (b : Byte) : (s.setSound b).st = b := rfl
@[simp] theorem State.setSound_fb (s : State) (b : Byte) : (s.setSound b).fb = s.fb := rfl
@[simp] theorem State.setSound_keys (s : State) (b : Byte) : (s.setSound b).keys = s.keys := rfl
@[simp] theorem State.setSound_mem (s : State) (b : Byte) : (s.setSound b).mem = s.mem := rfl
@[simp] theorem State.setSound_tc (s : State) (b : Byte) : (s.setSound b).tc = s.tc := rfl
@[simp] theorem State.setSound_rs (s : State) (b : Byte) : (s.setSound b).rs = s.rs := rfl
@[simp] theorem State.setSound_refresh (s : State) (b : Byte) : (s.setSound b).refresh = s.refresh := rfl
@[simp] theorem State.setSound_boot (s : State) (b : Byte) : (s.setSound b).boot = s.boot := rfl
@[simp] theorem State.setSound_params (s : State) (b : Byte) : (s.setSound b).params = s.params := rfl
@[simp] theorem State.setSound_inputs (s : State) (b : Byte) : (s.setSound b).inputs = s.inputs := rfl
@[simp] theorem State.setSound_draws (s : State) (b : Byte) : (s.setSound b).draws = s.draws := rfl
@[simp] theorem State.setSound_reg (s : State) (b : Byte) (r : Reg) : (s.setSound b).reg r = s.reg r := rfl
@[simp] theorem State.setSound_key (s : State) (b : Byte) (j : Key) : (s.setSound b).key j = s.key j := rfl
@[simp] theorem State.setSound_pixel (s : State) (b : Byte) (px : Fin 64) (py : Fin 32) : (s.setSound b).pixel px py = s.pixel px py := rfl
@[simp] theorem State.setSound_readByte (s : State) (b : Byte) (a' : Nat) : (s.setSound b).readByte a' = s.readByte a' := rfl

/-! ### setFlag -/

@[simp] theorem State.setFlag_v (s : State) (c : Bool) : (s.setFlag c).v = s.v.set flagReg (flagByte c) := rfl
@[simp] theorem State.setFlag_index (s : State) (c : Bool) : (s.setFlag c).index = s.index := rfl
@[simp] theorem State.setFlag_pc (s : State) (c : Bool) : (s.setFlag c).pc = s.pc := rfl
@[simp] theorem State.setFlag_sp (s : State) (c : Bool) : (s.setFlag c).sp = s.sp := rfl
@[simp] theorem State.setFlag_stack (s : State) (c : Bool) : (s.setFlag c).stack = s.stack := rfl
@[simp] theorem State.setFlag_dt (s : State) (c : Bool) : (s.setFlag c).dt = s.dt := rfl
@[simp] theorem State.setFlag_st (s : State) (c : Bool) : (s.setFlag c).st = s.st := rfl
@[simp] theorem State.setFlag_fb (s : State) (c : Bool) : (s.setFlag c).fb = s.fb := rfl
@[simp] theorem State.setFlag_keys (s : State) (c : Bool) : (s.setFlag c).keys = s.keys := rfl
@[simp] theorem State.setFlag_mem (s : State) (c : Bool) : (s.setFlag c).mem = s.mem := rfl
@[simp] theorem State.setFlag_tc (s : State) (c : Bool) : (s.setFlag c).tc = s.tc := rfl
@[simp] theorem State.setFlag_rs (s : State) (c : Bool) : (s.setFlag c).rs = s.rs := rfl
@[simp] theorem State.setFlag_refresh (s : State) (c : Bool) : (s.setFlag c).refresh = s.refresh := rfl
@[simp] theorem State.setFlag_boot (s : State) (c : Bool) : (s.setFlag c).boot = s.boot := rfl
@[simp] theorem State.setFlag_params (s : State) (c : Bool) : (s.setFlag c).params = s.params := rfl
@[simp] theorem State.setFlag_inputs (s : State) (c : Bool) : (s.setFlag c).inputs = s.inputs := rfl
@[simp] theorem State.setFlag_draws (s : State) (c : Bool) : (s.setFlag c).draws = s.draws := rfl
@[simp] theorem State.setFlag_key (s : State) (c : Bool) (j : Key) : (s.setFlag c).key j = s.key j := rfl
@[simp] theorem State.setFlag_pixel (s : State) (c : Bool) (px : Fin 64) (py : Fin 32) : (s.setFlag c).pixel px py = s.pixel px py := rfl
@[simp] theorem State.setFlag_readByte (s : State) (c : Bool) (a' : Nat) : (s.setFlag c).readByte a' = s.readByte a' := rfl

/-! ### writeByte -/

@[simp] theorem State.writeByte_v (s : State) (a : Nat) (b : Byte) : (s.writeByte a b).v = s.v := rfl
@[simp] theorem State.writeByte_index (s : State) (a : Nat) (b : Byte) : (s.writeByte a b).index = s.index := rfl
@[simp] theorem State.writeByte_pc (s : State) (a : Nat) (b : Byte) : (s.writeByte a b).pc = s.pc := rfl
@[simp] theorem State.writeByte_sp (s : State) (a : Nat) (b : Byte) : (s.writeByte a b).sp = s.sp := rfl
@[simp] theorem State.writeByte_stack (s : State) (a : Nat) (b : Byte) : (s.writeByte a b).stack = s.stack := rfl
@[simp] theorem State.writeByte_dt (s : State) (a : Nat) (b : Byte) : (s.writeByte a b).dt = s.dt := rfl
@[simp] theorem State.writeByte_st (s : State) (a : Nat) (b : Byte) : (s.writeByte a b).st = s.st := rfl
@[simp] theorem State.writeByte_fb (s : State) (a : Nat) (b : Byte) : (s.writeByte a b).fb = s.fb := rfl
@[simp] theorem State.writeByte_keys (s : State) (a : Nat) (b : Byte) : (s.writeByte a b).keys = s.keys := rfl
@[simp] theorem State.writeByte_mem (s : State) (a : Nat) (b : Byte) : (s.writeByte a b).mem = Memory.write s.params.font s.mem a b := rfl
@[simp] theorem State.writeByte_tc (s : State) (a : Nat) (b : Byte) : (s.writeByte a b).tc = s.tc := rfl
@[simp] theorem State.writeByte_rs (s : State) (a : Nat) (b : Byte) : (s.writeByte a b).rs = s.rs := rfl
@[simp] theorem State.writeByte_refresh (s : State) (a : Nat) (b : Byte) : (s.writeByte a b).refresh = s.refresh := rfl
@[simp] theorem State.writeByte_boot (s : State) (a : Nat) (b : Byte) : (s.writeByte a b).boot = s.boot := rfl
@[simp] theorem State.writeByte_params (s : State) (a : Nat) (b : Byte) : (s.writeByte a b).params = s.params := rfl
@[simp] theorem State.writeByte_inputs (s : State) (a : Nat) (b : Byte) : (s.writeByte a b).inputs = s.inputs := rfl
@[simp] theorem State.writeByte_draws (s : State) (a : Nat) (b : Byte) : (s.writeByte a b).draws = s.draws := rfl
@[simp] theorem State.writeByte_reg (s : State) (a : Nat) (b : Byte) (r : Reg) : (s.writeByte a b).reg r = s.reg r := rfl
@[simp] theorem State.writeByte_key (s : State) (a : Nat) (b : Byte) (j : Key) : (s.writeByte a b).key j = s.key j := rfl
@[simp] theorem State.writeByte_pixel (s : State) (a : Nat) (b : Byte) (px : Fin 64) (py : Fin 32) : (s.writeByte a b).pixel px py = s.pixel px py := rfl

/-! ### loadRegs -/

@[simp] theorem State.loadRegs_index (s : State) (x : Reg) (a : Nat) : (s.loadRegs x a).index = s.index := rfl
@[simp] theorem State.loadRegs_pc (s : State) (x : Reg) (a : Nat) : (s.loadRegs x a).pc = s.pc := rfl
@[simp] theorem State.loadRegs_sp (s : State) (x : Reg) (a : Nat) : (s.loadRegs x a).sp = s.sp := rfl
@[simp] theorem State.loadRegs_stack (s : State) (x : Reg) (a : Nat) : (s.loadRegs x a).stack = s.stack := rfl
@[simp] theorem State.loadRegs_dt (s : State) (x : Reg) (a : Nat) : (s.loadRegs x a).dt = s.dt := rfl
@[simp] theorem State.loadRegs_st (s : State) (x : Reg) (a : Nat) : (s.loadRegs x a).st = s.st := rfl
@[simp] theorem State.loadRegs_fb (s : State) (x : Reg) (a : Nat) : (s.loadRegs x a).fb = s.fb := rfl
@[simp] theorem State.loadRegs_keys (s : State) (x : Reg) (a : Nat) : (s.loadRegs x a).keys = s.keys := rfl
@[simp] theorem State.loadRegs_mem (s : State) (x : Reg) (a : Nat) : (s.loadRegs x a).mem = s.mem := rfl
@[simp] theorem State.loadRegs_tc (s : State) (x : Reg) (a : Nat) : (s.loadRegs x a).tc = s.tc := rfl
@[simp] theorem State.loadRegs_rs (s : State) (x : Reg) (a : Nat) : (s.loadRegs x a).rs = s.rs := rfl
@[simp] theorem State.loadRegs_refresh (s : State) (x : Reg) (a : Nat) : (s.loadRegs x a).refresh = s.refresh := rfl
@[simp] theorem State.loadRegs_boot (s : State) (x : Reg) (a : Nat) : (s.loadRegs x a).boot = s.boot := rfl
@[simp] theorem State.loadRegs_params (s : State) (x : Reg) (a : Nat) : (s.loadRegs x a).params = s.params := rfl
@[simp] theorem State.loadRegs_inputs (s : State) (x : Reg) (a : Nat) : (s.loadRegs x a).inputs = s.inputs := rfl
@[simp] theorem State.loadRegs_draws (s : State) (x : Reg) (a : Nat) : (s.loadRegs x a).draws = s.draws := rfl
@[simp] theorem State.loadRegs_key (s : State) (x : Reg) (a : Nat) (j : Key) : (s.loadRegs x a).key j = s.key j := rfl
@[simp] theorem State.loadRegs_pixel (s : State) (x : Reg) (a : Nat) (px : Fin 64) (py : Fin 32) : (s.loadRegs x a).pixel px py = s.pixel px py := rfl
@[simp] theorem State.loadRegs_readByte (s : State) (x : Reg) (a : Nat) (a' : Nat) : (s.loadRegs x a).readByte a' = s.readByte a' := rfl

/-! ### setFrame -/

@[simp] theorem State.setFrame_v (s : State) (f : Frame) : (s.setFrame f).v = s.v := rfl
@[simp] theorem State.setFrame_index (s : State) (f : Frame) : (s.setFrame f).index = s.index := rfl
@[simp] theorem State.setFrame_pc (s : State) (f : Frame) : (s.setFrame f).pc = s.pc := rfl
@[simp] theorem State.setFrame_sp (s : State) (f : Frame) : (s.setFrame f).sp = s.sp := rfl
@[simp] theorem State.setFrame_stack (s : State) (f : Frame) : (s.setFrame f).stack = s.stack := rfl
@[simp] theorem State.setFrame_dt (s : State) (f : Frame) : (s.setFrame f).dt = s.dt := rfl
@[simp] theorem State.setFrame_st (s : State) (f : Frame) : (s.setFrame f).st = s.st := rfl
@[simp] theorem State.setFrame_fb (s : State) (f : Frame) : (s.setFrame f).fb = f := rfl
@[simp] theorem State.setFrame_keys (s : State) (f : Frame) : (s.setFrame f).keys = s.keys := rfl
@[simp] theorem State.setFrame_mem (s : State) (f : Frame) : (s.setFrame f).mem = s.mem := rfl
@[simp] theorem State.setFrame_tc (s : State) (f : Frame) : (s.setFrame f).tc = s.tc := rfl
@[simp] theorem State.setFrame_rs (s : State) (f : Frame) : (s.setFrame f).rs = s.rs := rfl
@[simp] theorem State.setFrame_refresh (s : State) (f : Frame) : (s.setFrame f).refresh = s.refresh := rfl
@[simp] theorem State.setFrame_boot (s : State) (f : Frame) : (s.setFrame f).boot = s.boot := rfl
@[simp] theorem State.setFrame_params (s : State) (f : Frame) : (s.setFrame f).params = s.params := rfl
@[simp] theorem State.setFrame_inputs (s : State) (f : Frame) : (s.setFrame f).inputs = s.inputs := rfl
@[simp] theorem State.setFrame_draws (s : State) (f : Frame) : (s.setFrame f).draws = s.draws := rfl
@[simp] theorem State.setFrame_reg (s : State) (f : Frame) (r : Reg) : (s.setFrame f).reg r = s.reg r := rfl
@[simp] theorem State.setFrame_key (s : State) (f : Frame) (j : Key) : (s.setFrame f).key j = s.key j := rfl
@[simp] theorem State.setFrame_readByte (s : State) (f : Frame) (a' : Nat) : (s.setFrame f).readByte a' = s.readByte a' := rfl

/-! ### pulseRefresh -/

@[simp] theorem State.pulseRefresh_v (s : State) : (s.pulseRefresh).v = s.v := rfl
@[simp] theorem State.pulseRefresh_index (s : State) : (s.pulseRefresh).index = s.index := rfl
@[simp] theorem State.pulseRefresh_pc (s : State) : (s.pulseRefresh).pc = s.pc := rfl
@[simp] theorem State.pulseRefresh_sp (s : State) : (s.pulseRefresh).sp = s.sp := rfl
@[simp] theorem State.pulseRefresh_stack (s : State) : (s.pulseRefresh).stack = s.stack := rfl
@[simp] theorem State.pulseRefresh_dt (s : State) : (s.pulseRefresh).dt = s.dt := rfl
@[simp] theorem State.pulseRefresh_st (s : State) : (s.pulseRefresh).st = s.st := rfl
@[simp] theorem State.pulseRefresh_fb (s : State) : (s.pulseRefresh).fb = s.fb := rfl
@[simp] theorem State.pulseRefresh_keys (s : State) : (s.pulseRefresh).keys = s.keys := rfl
@[simp] theorem State.pulseRefresh_mem (s : State) : (s.pulseRefresh).mem = s.mem := rfl
@[simp] theorem State.pulseRefresh_tc (s : State) : (s.pulseRefresh).tc = s.tc := rfl
@[simp] theorem State.pulseRefresh_rs (s : State) : (s.pulseRefresh).rs = s.rs := rfl
@[simp] theorem State.pulseRefresh_refresh (s : State) : (s.pulseRefresh).refresh = true := rfl
@[simp] theorem State.pulseRefresh_boot (s : State) : (s.pulseRefresh).boot = s.boot := rfl
@[simp] theorem State.pulseRefresh_params (s : State) : (s.pulseRefresh).params = s.params := rfl
@[simp] theorem State.pulseRefresh_inputs (s : State) : (s.pulseRefresh).inputs = s.inputs := rfl
@[simp] theorem State.pulseRefresh_draws (s : State) : (s.pulseRefresh).draws = s.draws := rfl
@[simp] theorem State.pulseRefresh_reg (s : State) (r : Reg) : (s.pulseRefresh).reg r = s.reg r := rfl
@[simp] theorem State.pulseRefresh_key (s : State) (j : Key) : (s.pulseRefresh).key j = s.key j := rfl
@[simp] theorem State.pulseRefresh_pixel (s : State) (px : Fin 64) (py : Fin 32) : (s.pulseRefresh).pixel px py = s.pixel px py := rfl
@[simp] theorem State.pulseRefresh_readByte (s : State) (a' : Nat) : (s.pulseRefresh).readByte a' = s.readByte a' := rfl

/-! ### setKey -/

@[simp] theorem State.setKey_v (s : State) (k : Key) (b : Bool) : (s.setKey k b).v = s.v := rfl
@[simp] theorem State.setKey_index (s : State) (k : Key) (b : Bool) : (s.setKey k b).index = s.index := rfl
@[simp] theorem State.setKey_pc (s : State) (k : Key) (b : Bool) : (s.setKey k b).pc = s.pc := rfl
@[simp] theorem State.setKey_sp (s : State) (k : Key) (b : Bool) : (s.setKey k b).sp = s.sp := rfl
@[simp] theorem State.setKey_stack (s : State) (k : Key) (b : Bool) : (s.setKey k b).stack = s.stack := rfl
@[simp] theorem State.setKey_dt (s : State) (k : Key) (b : Bool) : (s.setKey k b).dt = s.dt := rfl
@[simp] theorem State.setKey_st (s : State) (k : Key) (b : Bool) : (s.setKey k b).st = s.st := rfl
@[simp] theorem State.setKey_fb (s : State) (k : Key) (b : Bool) : (s.setKey k b).fb = s.fb := rfl
@[simp] theorem State.setKey_keys (s : State) (k : Key) (b : Bool) : (s.setKey k b).keys = s.keys.set k b := rfl
@[simp] theorem State.setKey_mem (s : State) (k : Key) (b : Bool) : (s.setKey k b).mem = s.mem := rfl
@[simp] theorem State.setKey_tc (s : State) (k : Key) (b : Bool) : (s.setKey k b).tc = s.tc := rfl
@[simp] theorem State.setKey_rs (s : State) (k : Key) (b : Bool) : (s.setKey k b).rs = s.rs := rfl
@[simp] theorem State.setKey_refresh (s : State) (k : Key) (b : Bool) : (s.setKey k b).refresh = s.refresh := rfl
@[simp] theorem State.setKey_boot (s : State) (k : Key) (b : Bool) : (s.setKey k b).boot = s.boot := rfl
@[simp] theorem State.setKey_params (s : State) (k : Key) (b : Bool) : (s.setKey k b).params = s.params := rfl
@[simp] theorem State.setKey_inputs (s : State) (k : Key) (b : Bool) : (s.setKey k b).inputs = s.inputs := rfl
@[simp] theorem State.setKey_draws (s : State) (k : Key) (b : Bool) : (s.setKey k b).draws = s.draws := rfl
@[simp] theorem State.setKey_reg (s : State) (k : Key) (b : Bool) (r : Reg) : (s.setKey k b).reg r = s.reg r := rfl
@[simp] theorem State.setKey_pixel (s : State) (k : Key) (b : Bool) (px : Fin 64) (py : Fin 32) : (s.setKey k b).pixel px py = s.pixel px py := rfl
@[simp] theorem State.setKey_readByte (s : State) (k : Key) (b : Bool) (a' : Nat) : (s.setKey k b).readByte a' = s.readByte a' := rfl

/-! ### countDraw -/

@[simp] theorem State.countDraw_v (s : State) : (s.countDraw).v = s.v := rfl
@[simp] theorem State.countDraw_index (s : State) : (s.countDraw).index = s.index := rfl
@[simp] theorem State.countDraw_pc (s : State) : (s.countDraw).pc = s.pc := rfl
@[simp] theorem State.countDraw_sp (s : State) : (s.countDraw).sp = s.sp := rfl
@[simp] theorem State.countDraw_stack (s : State) : (s.countDraw).stack = s.stack := rfl
@[simp] theorem State.countDraw_dt (s : State) : (s.countDraw).dt = s.dt := rfl
@[simp] theorem State.countDraw_st (s : State) : (s.countDraw).st = s.st := rfl
@[simp] theorem State.countDraw_fb (s : State) : (s.countDraw).fb = s.fb := rfl
@[simp] theorem State.countDraw_keys (s : State) : (s.countDraw).keys = s.keys := rfl
@[simp] theorem State.countDraw_mem (s : State) : (s.countDraw).mem = s.mem := rfl
@[simp] theorem State.countDraw_tc (s : State) : (s.countDraw).tc = s.tc := rfl
@[simp] theorem State.countDraw_rs (s : State) : (s.countDraw).rs = s.rs := rfl
@[simp] theorem State.countDraw_refresh (s : State) : (s.countDraw).refresh = s.refresh := rfl
@[simp] theorem State.countDraw_boot (s : State) : (s.countDraw).boot = s.boot := rfl
@[simp] theorem State.countDraw_params (s : State) : (s.countDraw).params = s.params := rfl
@[simp] theorem State.countDraw_inputs (s : State) : (s.countDraw).inputs = s.inputs := rfl
@[simp] theorem State.countDraw_draws (s : State) : (s.countDraw).draws = s.draws + 1 := rfl
@[simp] theorem State.countDraw_reg (s : State) (r : Reg) : (s.countDraw).reg r = s.reg r := rfl
@[simp] theorem State.countDraw_key (s : State) (j : Key) : (s.countDraw).key j = s.key j := rfl
@[simp] theorem State.countDraw_pixel (s : State) (px : Fin 64) (py : Fin 32) : (s.countDraw).pixel px py = s.pixel px py := rfl
@[simp] theorem State.countDraw_readByte (s : State) (a' : Nat) : (s.countDraw).readByte a' = s.readByte a' := rfl

/-! ### complete -/

@[simp] theorem State.complete_v (s : State) : (s.complete).v = s.v := rfl
@[simp] theorem State.complete_index (s : State) : (s.complete).index = s.index := rfl
@[simp] theorem State.complete_pc (s : State) : (s.complete).pc = s.pc := rfl
@[simp] theorem State.complete_sp (s : State) : (s.complete).sp = s.sp := rfl
@[simp] theorem State.complete_stack (s : State) : (s.complete).stack = s.stack := rfl
@[simp] theorem State.complete_dt (s : State) : (s.complete).dt = if nextTc s.params.timerDivisor s.tc = 0 then decTimer s.dt else s.dt := rfl
@[simp] theorem State.complete_st (s : State) : (s.complete).st = if nextTc s.params.timerDivisor s.tc = 0 then decTimer s.st else s.st := rfl
@[simp] theorem State.complete_fb (s : State) : (s.complete).fb = s.fb := rfl
@[simp] theorem State.complete_keys (s : State) : (s.complete).keys = s.keys := rfl
@[simp] theorem State.complete_mem (s : State) : (s.complete).mem = s.mem := rfl
@[simp] theorem State.complete_tc (s : State) : (s.complete).tc = nextTc s.params.timerDivisor s.tc := rfl
@[simp] theorem State.complete_rs (s : State) : (s.complete).rs = s.rs := rfl
@[simp] theorem State.complete_refresh (s : State) : (s.complete).refresh = s.refresh := rfl
@[simp] theorem State.complete_boot (s : State) : (s.complete).boot = s.boot := rfl
@[simp] theorem State.complete_params (s : State) : (s.complete).params = s.params := rfl
@[simp] theorem State.complete_inputs (s : State) : (s.complete).inputs = s.inputs := rfl
@[simp] theorem State.complete_draws (s : State) : (s.complete).draws = s.draws := rfl
@[simp] theorem State.complete_reg (s : State) (r : Reg) : (s.complete).reg r = s.reg r := rfl
@[simp] theorem State.complete_key (s : State) (j : Key) : (s.complete).key j = s.key j := rfl
@[simp] theorem State.complete_pixel (s : State) (px : Fin 64) (py : Fin 32) : (s.complete).pixel px py = s.pixel px py := rfl
@[simp] theorem State.complete_readByte (s : State) (a' : Nat) : (s.complete).readByte a' = s.readByte a' := rfl

/-! ### raise -/

@[simp] theorem State.raise_v (s : State) (e : FaultKind) (o : Option Word) (n : Option Nat) : (s.raise e o n).v = s.v := rfl
@[simp] theorem State.raise_index (s : State) (e : FaultKind) (o : Option Word) (n : Option Nat) : (s.raise e o n).index = s.index := rfl
@[simp] theorem State.raise_pc (s : State) (e : FaultKind) (o : Option Word) (n : Option Nat) : (s.raise e o n).pc = s.pc := rfl
@[simp] theorem State.raise_sp (s : State) (e : FaultKind) (o : Option Word) (n : Option Nat) : (s.raise e o n).sp = s.sp := rfl
@[simp] theorem State.raise_stack (s : State) (e : FaultKind) (o : Option Word) (n : Option Nat) : (s.raise e o n).stack = s.stack := rfl
@[simp] theorem State.raise_dt (s : State) (e : FaultKind) (o : Option Word) (n : Option Nat) : (s.raise e o n).dt = s.dt := rfl
@[simp] theorem State.raise_st (s : State) (e : FaultKind) (o : Option Word) (n : Option Nat) : (s.raise e o n).st = s.st := rfl
@[simp] theorem State.raise_fb (s : State) (e : FaultKind) (o : Option Word) (n : Option Nat) : (s.raise e o n).fb = s.fb := rfl
@[simp] theorem State.raise_keys (s : State) (e : FaultKind) (o : Option Word) (n : Option Nat) : (s.raise e o n).keys = s.keys := rfl
@[simp] theorem State.raise_mem (s : State) (e : FaultKind) (o : Option Word) (n : Option Nat) : (s.raise e o n).mem = s.mem := rfl
@[simp] theorem State.raise_tc (s : State) (e : FaultKind) (o : Option Word) (n : Option Nat) : (s.raise e o n).tc = s.tc := rfl
@[simp] theorem State.raise_rs (s : State) (e : FaultKind) (o : Option Word) (n : Option Nat) : (s.raise e o n).rs = .faulted { kind := e, pc := s.pc, opcode := o, info := n } := rfl
@[simp] theorem State.raise_refresh (s : State) (e : FaultKind) (o : Option Word) (n : Option Nat) : (s.raise e o n).refresh = s.refresh := rfl
@[simp] theorem State.raise_boot (s : State) (e : FaultKind) (o : Option Word) (n : Option Nat) : (s.raise e o n).boot = s.boot := rfl
@[simp] theorem State.raise_params (s : State) (e : FaultKind) (o : Option Word) (n : Option Nat) : (s.raise e o n).params = s.params := rfl
@[simp] theorem State.raise_inputs (s : State) (e : FaultKind) (o : Option Word) (n : Option Nat) : (s.raise e o n).inputs = s.inputs := rfl
@[simp] theorem State.raise_draws (s : State) (e : FaultKind) (o : Option Word) (n : Option Nat) : (s.raise e o n).draws = s.draws := rfl
@[simp] theorem State.raise_reg (s : State) (e : FaultKind) (o : Option Word) (n : Option Nat) (r : Reg) : (s.raise e o n).reg r = s.reg r := rfl
@[simp] theorem State.raise_key (s : State) (e : FaultKind) (o : Option Word) (n : Option Nat) (j : Key) : (s.raise e o n).key j = s.key j := rfl
@[simp] theorem State.raise_pixel (s : State) (e : FaultKind) (o : Option Word) (n : Option Nat) (px : Fin 64) (py : Fin 32) : (s.raise e o n).pixel px py = s.pixel px py := rfl
@[simp] theorem State.raise_readByte (s : State) (e : FaultKind) (o : Option Word) (n : Option Nat) (a' : Nat) : (s.raise e o n).readByte a' = s.readByte a' := rfl

/-! ### takeInput -/

@[simp] theorem State.takeInput_v (s : State) : (s.takeInput).v = s.v := rfl
@[simp] theorem State.takeInput_index (s : State) : (s.takeInput).index = s.index := rfl
@[simp] theorem State.takeInput_pc (s : State) : (s.takeInput).pc = s.pc := rfl
@[simp] theorem State.takeInput_sp (s : State) : (s.takeInput).sp = s.sp := rfl
@[simp] theorem State.takeInput_stack (s : State) : (s.takeInput).stack = s.stack := rfl
@[simp] theorem State.takeInput_dt (s : State) : (s.takeInput).dt = s.dt := rfl
@[simp] theorem State.takeInput_st (s : State) : (s.takeInput).st = s.st := rfl
@[simp] theorem State.takeInput_fb (s : State) : (s.takeInput).fb = s.fb := rfl
@[simp] theorem State.takeInput_keys (s : State) : (s.takeInput).keys = s.keys := rfl
@[simp] theorem State.takeInput_mem (s : State) : (s.takeInput).mem = s.mem := rfl
@[simp] theorem State.takeInput_tc (s : State) : (s.takeInput).tc = s.tc := rfl
@[simp] theorem State.takeInput_rs (s : State) : (s.takeInput).rs = s.rs := rfl
@[simp] theorem State.takeInput_refresh (s : State) : (s.takeInput).refresh = s.refresh := rfl
@[simp] theorem State.takeInput_boot (s : State) : (s.takeInput).boot = s.boot := rfl
@[simp] theorem State.takeInput_params (s : State) : (s.takeInput).params = s.params := rfl
@[simp] theorem State.takeInput_inputs (s : State) : (s.takeInput).inputs = s.inputs.tail := rfl
@[simp] theorem State.takeInput_draws (s : State) : (s.takeInput).draws = s.draws := rfl
@[simp] theorem State.takeInput_reg (s : State) (r : Reg) : (s.takeInput).reg r = s.reg r := rfl
@[simp] theorem State.takeInput_key (s : State) (j : Key) : (s.takeInput).key j = s.key j := rfl
@[simp] theorem State.takeInput_pixel (s : State) (px : Fin 64) (py : Fin 32) : (s.takeInput).pixel px py = s.pixel px py := rfl
@[simp] theorem State.takeInput_readByte (s : State) (a' : Nat) : (s.takeInput).readByte a' = s.readByte a' := rfl

/-! ### beginCycle -/

@[simp] theorem State.beginCycle_v (s : State) : (s.beginCycle).v = s.v := rfl
@[simp] theorem State.beginCycle_index (s : State) : (s.beginCycle).index = s.index := rfl
@[simp] theorem State.beginCycle_pc (s : State) : (s.beginCycle).pc = s.pc := rfl
@[simp] theorem State.beginCycle_sp (s : State) : (s.beginCycle).sp = s.sp := rfl
@[simp] theorem State.beginCycle_stack (s : State) : (s.beginCycle).stack = s.stack := rfl
@[simp] theorem State.beginCycle_dt (s : State) : (s.beginCycle).dt = s.dt := rfl
@[simp] theorem State.beginCycle_st (s : State) : (s.beginCycle).st = s.st := rfl
@[simp] theorem State.beginCycle_fb (s : State) : (s.beginCycle).fb = s.fb := rfl
@[simp] theorem State.beginCycle_keys (s : State) : (s.beginCycle).keys = s.keys := rfl
@[simp] theorem State.beginCycle_mem (s : State) : (s.beginCycle).mem = s.mem := rfl
@[simp] theorem State.beginCycle_tc (s : State) : (s.beginCycle).tc = s.tc := rfl
@[simp] theorem State.beginCycle_rs (s : State) : (s.beginCycle).rs = s.rs := rfl
@[simp] theorem State.beginCycle_refresh (s : State) : (s.beginCycle).refresh = false := rfl
@[simp] theorem State.beginCycle_boot (s : State) : (s.beginCycle).boot = .loaded := rfl
@[simp] theorem State.beginCycle_params (s : State) : (s.beginCycle).params = s.params := rfl
@[simp] theorem State.beginCycle_inputs (s : State) : (s.beginCycle).inputs = s.inputs.tail := rfl
@[simp] theorem State.beginCycle_draws (s : State) : (s.beginCycle).draws = s.draws := rfl
@[simp] theorem State.beginCycle_reg (s : State) (r : Reg) : (s.beginCycle).reg r = s.reg r := rfl
@[simp] theorem State.beginCycle_key (s : State) (j : Key) : (s.beginCycle).key j = s.key j := rfl
@[simp] theorem State.beginCycle_pixel (s : State) (px : Fin 64) (py : Fin 32) : (s.beginCycle).pixel px py = s.pixel px py := rfl
@[simp] theorem State.beginCycle_readByte (s : State) (a' : Nat) : (s.beginCycle).readByte a' = s.readByte a' := rfl

/-! ### The observations of the part an update writes -/

theorem State.reg_def (s : State) (r : Reg) : s.reg r = s.v[r] := rfl

@[simp] theorem State.setReg_reg (s : State) (x : Reg) (b : Byte) (r : Reg) :
    (s.setReg x b).reg r = if r = x then b else s.reg r := by
  simp only [State.reg_def, State.setReg_v, Fin.getElem_fin, Vector.getElem_set, Fin.ext_iff, eq_comm]

@[simp] theorem State.setFlag_reg (s : State) (c : Bool) (r : Reg) :
    (s.setFlag c).reg r = if r = 0xF then flagByte c else s.reg r :=
  State.setReg_reg s flagReg (flagByte c) r

@[simp] theorem State.loadRegs_reg (s : State) (x : Reg) (a : Nat) (r : Reg) :
    (s.loadRegs x a).reg r = if r ≤ x then s.readByte (a + r.val) else s.reg r := by
  simp [State.reg_def, State.loadRegs]

@[simp] theorem State.setKey_key (s : State) (k : Key) (b : Bool) (j : Key) :
    (s.setKey k b).key j = if j = k then b else s.key j := by
  simp only [State.key, State.setKey_keys, Fin.getElem_fin, Vector.getElem_set, Fin.ext_iff, eq_comm]

@[simp] theorem State.setFrame_pixel (s : State) (f : Frame) (px : Fin 64) (py : Fin 32) :
    (s.setFrame f).pixel px py = f.cell px py := rfl

@[simp] theorem Frame.clear_cell (px : Fin 64) (py : Fin 32) : Frame.clear.cell px py = false := by
  simp [Frame.clear, Frame.cell]

@[simp] theorem Frame.flip_cell (f : Frame) (qx px : Fin 64) (qy py : Fin 32) :
    (f.flip qx qy).cell px py = if px = qx ∧ py = qy then !f.cell px py else f.cell px py := by
  by_cases hy : py = qy
  · subst hy
    by_cases hx : px = qx
    · subst hx; simp [Frame.flip, Frame.cell]
    · have : ¬ qx.val = px.val := fun h => hx (Fin.ext h.symm)
      simp [Frame.flip, Frame.cell, hx, this]
  · have : ¬ qy.val = py.val := fun h => hy (Fin.ext h.symm)
    simp [Frame.flip, Frame.cell, hy, this]

/-! ### Results and flags -/

@[simp] theorem State.writeResult_reg (s : State) (x : Reg) (b : Byte) (r : Reg) :
    (s.writeResult x b).reg r = if r = x then b else s.reg r := by
  simp [State.writeResult]

/-- With `x = F` the flag remains (R15). -/
@[simp] theorem State.writeResultFlag_reg (s : State) (x : Reg) (b : Byte) (c : Bool) (r : Reg) :
    (s.writeResultFlag x b c).reg r = if r = 0xF then flagByte c else if r = x then b else s.reg r := by
  simp [State.writeResultFlag]

@[simp] theorem flagByte_toNat (c : Bool) : (flagByte c).toNat = if c then 1 else 0 := by
  cases c <;> rfl

@[simp] theorem decTimer_toNat (b : Byte) : (decTimer b).toNat = b.toNat - 1 := by
  have := b.isLt
  simp only [decTimer, BitVec.toNat_ofNat]
  omega

@[simp] theorem State.writeResult_index (s : State) (x : Reg) (b : Byte) : (s.writeResult x b).index = s.index := rfl
@[simp] theorem State.writeResult_pc (s : State) (x : Reg) (b : Byte) : (s.writeResult x b).pc = s.pc + 2 := rfl
@[simp] theorem State.writeResult_sp (s : State) (x : Reg) (b : Byte) : (s.writeResult x b).sp = s.sp := rfl
@[simp] theorem State.writeResult_stack (s : State) (x : Reg) (b : Byte) : (s.writeResult x b).stack = s.stack := rfl
@[simp] theorem State.writeResult_dt (s : State) (x : Reg) (b : Byte) : (s.writeResult x b).dt = s.dt := rfl
@[simp] theorem State.writeResult_st (s : State) (x : Reg) (b : Byte) : (s.writeResult x b).st = s.st := rfl
@[simp] theorem State.writeResult_fb (s : State) (x : Reg) (b : Byte) : (s.writeResult x b).fb = s.fb := rfl
@[simp] theorem State.writeResult_keys (s : State) (x : Reg) (b : Byte) : (s.writeResult x b).keys = s.keys := rfl
@[simp] theorem State.writeResult_mem (s : State) (x : Reg) (b : Byte) : (s.writeResult x b).mem = s.mem := rfl
@[simp] theorem State.writeResult_tc (s : State) (x : Reg) (b : Byte) : (s.writeResult x b).tc = s.tc := rfl
@[simp] theorem State.writeResult_rs (s : State) (x : Reg) (b : Byte) : (s.writeResult x b).rs = s.rs := rfl
@[simp] theorem State.writeResult_refresh (s : State) (x : Reg) (b : Byte) : (s.writeResult x b).refresh = s.refresh := rfl
@[simp] theorem State.writeResult_boot (s : State) (x : Reg) (b : Byte) : (s.writeResult x b).boot = s.boot := rfl
@[simp] theorem State.writeResult_params (s : State) (x : Reg) (b : Byte) : (s.writeResult x b).params = s.params := rfl
@[simp] theorem State.writeResult_inputs (s : State) (x : Reg) (b : Byte) : (s.writeResult x b).inputs = s.inputs := rfl
@[simp] theorem State.writeResult_draws (s : State) (x : Reg) (b : Byte) : (s.writeResult x b).draws = s.draws := rfl
@[simp] theorem State.writeResult_key (s : State) (x : Reg) (b : Byte) (j : Key) : (s.writeResult x b).key j = s.key j := rfl
@[simp] theorem State.writeResult_pixel (s : State) (x : Reg) (b : Byte) (px : Fin 64) (py : Fin 32) : (s.writeResult x b).pixel px py = s.pixel px py := rfl
@[simp] theorem State.writeResult_readByte (s : State) (x : Reg) (b : Byte) (a' : Nat) : (s.writeResult x b).readByte a' = s.readByte a' := rfl

@[simp] theorem State.writeResultFlag_index (s : State) (x : Reg) (b : Byte) (c : Bool) : (s.writeResultFlag x b c).index = s.index := rfl
@[simp] theorem State.writeResultFlag_pc (s : State) (x : Reg) (b : Byte) (c : Bool) : (s.writeResultFlag x b c).pc = s.pc + 2 := rfl
@[simp] theorem State.writeResultFlag_sp (s : State) (x : Reg) (b : Byte) (c : Bool) : (s.writeResultFlag x b c).sp = s.sp := rfl
@[simp] theorem State.writeResultFlag_stack (s : State) (x : Reg) (b : Byte) (c : Bool) : (s.writeResultFlag x b c).stack = s.stack := rfl
@[simp] theorem State.writeResultFlag_dt (s : State) (x : Reg) (b : Byte) (c : Bool) : (s.writeResultFlag x b c).dt = s.dt := rfl
@[simp] theorem State.writeResultFlag_st (s : State) (x : Reg) (b : Byte) (c : Bool) : (s.writeResultFlag x b c).st = s.st := rfl
@[simp] theorem State.writeResultFlag_fb (s : State) (x : Reg) (b : Byte) (c : Bool) : (s.writeResultFlag x b c).fb = s.fb := rfl
@[simp] theorem State.writeResultFlag_keys (s : State) (x : Reg) (b : Byte) (c : Bool) : (s.writeResultFlag x b c).keys = s.keys := rfl
@[simp] theorem State.writeResultFlag_mem (s : State) (x : Reg) (b : Byte) (c : Bool) : (s.writeResultFlag x b c).mem = s.mem := rfl
@[simp] theorem State.writeResultFlag_tc (s : State) (x : Reg) (b : Byte) (c : Bool) : (s.writeResultFlag x b c).tc = s.tc := rfl
@[simp] theorem State.writeResultFlag_rs (s : State) (x : Reg) (b : Byte) (c : Bool) : (s.writeResultFlag x b c).rs = s.rs := rfl
@[simp] theorem State.writeResultFlag_refresh (s : State) (x : Reg) (b : Byte) (c : Bool) : (s.writeResultFlag x b c).refresh = s.refresh := rfl
@[simp] theorem State.writeResultFlag_boot (s : State) (x : Reg) (b : Byte) (c : Bool) : (s.writeResultFlag x b c).boot = s.boot := rfl
@[simp] theorem State.writeResultFlag_params (s : State) (x : Reg) (b : Byte) (c : Bool) : (s.writeResultFlag x b c).params = s.params := rfl
@[simp] theorem State.writeResultFlag_inputs (s : State) (x : Reg) (b : Byte) (c : Bool) : (s.writeResultFlag x b c).inputs = s.inputs := rfl
@[simp] theorem State.writeResultFlag_draws (s : State) (x : Reg) (b : Byte) (c : Bool) : (s.writeResultFlag x b c).draws = s.draws := rfl
@[simp] theorem State.writeResultFlag_key (s : State) (x : Reg) (b : Byte) (c : Bool) (j : Key) : (s.writeResultFlag x b c).key j = s.key j := rfl
@[simp] theorem State.writeResultFlag_pixel (s : State) (x : Reg) (b : Byte) (c : Bool) (px : Fin 64) (py : Fin 32) : (s.writeResultFlag x b c).pixel px py = s.pixel px py := rfl
@[simp] theorem State.writeResultFlag_readByte (s : State) (x : Reg) (b : Byte) (c : Bool) (a' : Nat) : (s.writeResultFlag x b c).readByte a' = s.readByte a' := rfl

end Sys2Proof.Machine
end

