-- ==== Sys2Proof/Laws/Memory.lean ====
section
/-! SUPPORT. What the memory operations do: a read after a write, the frame of a block store, and that every operation keeps the
canonical form. -/

namespace Sys2Proof.Machine

/-! ### Reads -/

theorem Memory.lookup_insert (a a' : Nat) (b : Byte) (m : List Host.Cell) :
    Memory.lookup a' (Memory.insert a b m) = if a' = a then some b else Memory.lookup a' m := by
  induction m with
  | nil => simp [Memory.insert, Memory.lookup, eq_comm]
  | cons c rest ih =>
    simp only [Memory.insert]
    split_ifs with h1 h2 h3 <;> simp only [Memory.lookup, ih] <;> split_ifs <;> first | rfl | omega

theorem Memory.lookup_erase (a a' : Nat) (m : List Host.Cell) :
    Memory.lookup a' (Memory.erase a m) = if a' = a then none else Memory.lookup a' m := by
  induction m with
  | nil => simp [Memory.erase, Memory.lookup]
  | cons c rest ih =>
    simp only [Memory.erase]
    split_ifs with h1 h2 <;> simp only [Memory.lookup, ih] <;> split_ifs <;> first | rfl | omega

/-- A read gives the byte last written at its address, and a write leaves every other address alone (R44). -/
theorem Memory.read_write (font : Vector Byte 80) (m : List Host.Cell) (a a' : Nat) (b : Byte) :
    Memory.read font (Memory.write font m a b) a' = if a' = a then b else Memory.read font m a' := by
  unfold Memory.read Memory.write
  split_ifs with h1 h2 h3
  · subst h2; simp [Memory.lookup_erase, h1]
  · simp [Memory.lookup_erase, h2]
  · simp [Memory.lookup_insert, h3]
  · simp [Memory.lookup_insert, h3]

@[simp] theorem State.writeByte_readByte (s : State) (a a' : Nat) (b : Byte) :
    (s.writeByte a b).readByte a' = if a' = a then b else s.readByte a' :=
  Memory.read_write s.params.font s.mem a a' b

/-! ### The canonical form -/

theorem Memory.mem_insert {a : Nat} {b : Byte} {m : List Host.Cell} {d : Host.Cell}
    (h : d ∈ Memory.insert a b m) : d = (a, b) ∨ d ∈ m := by
  induction m with
  | nil => simpa [Memory.insert] using h
  | cons c rest ih =>
    simp only [Memory.insert] at h
    split_ifs at h
    · simpa using h
    · rcases List.mem_cons.mp h with h | h
      · exact .inl h
      · exact .inr (List.mem_cons_of_mem _ h)
    · rcases List.mem_cons.mp h with h | h
      · exact .inr (h ▸ List.mem_cons_self)
      · exact (ih h).imp_right (List.mem_cons_of_mem _)

theorem Memory.mem_erase {a : Nat} {m : List Host.Cell} {d : Host.Cell} (h : d ∈ Memory.erase a m) : d ∈ m := by
  induction m with
  | nil => simp [Memory.erase] at h
  | cons c rest ih =>
    simp only [Memory.erase] at h
    split_ifs at h
    · exact List.mem_cons_of_mem _ (ih h)
    · rcases List.mem_cons.mp h with h | h
      · exact h ▸ List.mem_cons_self
      · exact List.mem_cons_of_mem _ (ih h)

theorem Memory.wf_cons {font : Vector Byte 80} {c : Host.Cell} {m : List Host.Cell} :
    Memory.wf font (c :: m) = true ↔
      c.1 < Config.memSize ∧ c.2 ≠ Memory.unlisted font c.1 ∧ (∀ d ∈ m, c.1 < d.1) ∧ Memory.wf font m = true := by
  simp [Memory.wf, and_assoc]

theorem Memory.wf_nil (font : Vector Byte 80) : Memory.wf font [] = true := rfl

theorem Memory.wf_insert {font : Vector Byte 80} {m : List Host.Cell} {a : Nat} {b : Byte}
    (ha : a < Config.memSize) (hb : b ≠ Memory.unlisted font a) (h : Memory.wf font m = true) :
    Memory.wf font (Memory.insert a b m) = true := by
  induction m with
  | nil => simp [Memory.insert, Memory.wf, ha, hb]
  | cons c rest ih =>
    obtain ⟨h1, h2, h3, h4⟩ := Memory.wf_cons.mp h
    simp only [Memory.insert]
    split_ifs with hlt heq
    · refine Memory.wf_cons.mpr ⟨ha, hb, fun d hd => ?_, h⟩
      rcases List.mem_cons.mp hd with rfl | hd
      · exact hlt
      · exact Nat.lt_trans hlt (h3 d hd)
    · exact Memory.wf_cons.mpr ⟨ha, hb, fun d hd => heq ▸ h3 d hd, h4⟩
    · refine Memory.wf_cons.mpr ⟨h1, h2, fun d hd => ?_, ih h4⟩
      rcases Memory.mem_insert hd with rfl | hd
      · show c.1 < a; omega
      · exact h3 d hd

theorem Memory.wf_erase {font : Vector Byte 80} {m : List Host.Cell} (a : Nat) (h : Memory.wf font m = true) :
    Memory.wf font (Memory.erase a m) = true := by
  induction m with
  | nil => rfl
  | cons c rest ih =>
    obtain ⟨h1, h2, h3, h4⟩ := Memory.wf_cons.mp h
    simp only [Memory.erase]
    split_ifs
    · exact ih h4
    · exact Memory.wf_cons.mpr ⟨h1, h2, fun d hd => h3 d (Memory.mem_erase hd), ih h4⟩

/-- A write inside the address space keeps the canonical form. -/
theorem Memory.wf_write {font : Vector Byte 80} {m : List Host.Cell} {a : Nat} (b : Byte)
    (ha : a < Config.memSize) (h : Memory.wf font m = true) : Memory.wf font (Memory.write font m a b) = true := by
  unfold Memory.write
  split_ifs with hb
  · exact Memory.wf_erase a h
  · exact Memory.wf_insert ha hb h

/-! ### Block stores -/

/-- A block store writes memory and nothing else. -/
theorem State.storeBytes_eq (s : State) (a : Nat) (bs : List Byte) :
    s.storeBytes a bs = { s with mem := (s.storeBytes a bs).mem } := by
  induction bs generalizing s a with
  | nil => rfl
  | cons b rest ih => rw [State.storeBytes, ih]; rfl

@[simp] theorem State.storeBytes_v (s : State) (a : Nat) (bs : List Byte) : (s.storeBytes a bs).v = s.v := by
  rw [State.storeBytes_eq]
@[simp] theorem State.storeBytes_index (s : State) (a : Nat) (bs : List Byte) : (s.storeBytes a bs).index = s.index := by
  rw [State.storeBytes_eq]
@[simp] theorem State.storeBytes_pc (s : State) (a : Nat) (bs : List Byte) : (s.storeBytes a bs).pc = s.pc := by
  rw [State.storeBytes_eq]
@[simp] theorem State.storeBytes_sp (s : State) (a : Nat) (bs : List Byte) : (s.storeBytes a bs).sp = s.sp := by
  rw [State.storeBytes_eq]
@[simp] theorem State.storeBytes_stack (s : State) (a : Nat) (bs : List Byte) : (s.storeBytes a bs).stack = s.stack := by
  rw [State.storeBytes_eq]
@[simp] theorem State.storeBytes_dt (s : State) (a : Nat) (bs : List Byte) : (s.storeBytes a bs).dt = s.dt := by
  rw [State.storeBytes_eq]
@[simp] theorem State.storeBytes_st (s : State) (a : Nat) (bs : List Byte) : (s.storeBytes a bs).st = s.st := by
  rw [State.storeBytes_eq]
@[simp] theorem State.storeBytes_fb (s : State) (a : Nat) (bs : List Byte) : (s.storeBytes a bs).fb = s.fb := by
  rw [State.storeBytes_eq]
@[simp] theorem State.storeBytes_keys (s : State) (a : Nat) (bs : List Byte) : (s.storeBytes a bs).keys = s.keys := by
  rw [State.storeBytes_eq]
@[simp] theorem State.storeBytes_tc (s : State) (a : Nat) (bs : List Byte) : (s.storeBytes a bs).tc = s.tc := by
  rw [State.storeBytes_eq]
@[simp] theorem State.storeBytes_rs (s : State) (a : Nat) (bs : List Byte) : (s.storeBytes a bs).rs = s.rs := by
  rw [State.storeBytes_eq]
@[simp] theorem State.storeBytes_refresh (s : State) (a : Nat) (bs : List Byte) : (s.storeBytes a bs).refresh = s.refresh := by
  rw [State.storeBytes_eq]
@[simp] theorem State.storeBytes_boot (s : State) (a : Nat) (bs : List Byte) : (s.storeBytes a bs).boot = s.boot := by
  rw [State.storeBytes_eq]
@[simp] theorem State.storeBytes_params (s : State) (a : Nat) (bs : List Byte) : (s.storeBytes a bs).params = s.params := by
  rw [State.storeBytes_eq]
@[simp] theorem State.storeBytes_inputs (s : State) (a : Nat) (bs : List Byte) : (s.storeBytes a bs).inputs = s.inputs := by
  rw [State.storeBytes_eq]
@[simp] theorem State.storeBytes_draws (s : State) (a : Nat) (bs : List Byte) : (s.storeBytes a bs).draws = s.draws := by
  rw [State.storeBytes_eq]
@[simp] theorem State.storeBytes_reg (s : State) (a : Nat) (bs : List Byte) (r : Reg) :
    (s.storeBytes a bs).reg r = s.reg r := by
  rw [State.storeBytes_eq]; rfl
@[simp] theorem State.storeBytes_key (s : State) (a : Nat) (bs : List Byte) (j : Key) :
    (s.storeBytes a bs).key j = s.key j := by
  rw [State.storeBytes_eq]; rfl
@[simp] theorem State.storeBytes_pixel (s : State) (a : Nat) (bs : List Byte) (px : Fin 64) (py : Fin 32) :
    (s.storeBytes a bs).pixel px py = s.pixel px py := by
  rw [State.storeBytes_eq]; rfl

/-- What a byte reads as after a block store: the stored byte inside the block, the old one outside. -/
theorem State.storeBytes_readByte (s : State) (a : Nat) (bs : List Byte) (a' : Nat) :
    (s.storeBytes a bs).readByte a' =
      if h : a ≤ a' ∧ a' < a + bs.length then bs[a' - a]'(by omega) else s.readByte a' := by
  induction bs generalizing s a with
  | nil => simp [State.storeBytes]
  | cons b rest ih =>
    rw [State.storeBytes, ih]
    by_cases h0 : a' = a
    · subst h0; simp
    · by_cases h1 : a ≤ a' ∧ a' < a + (rest.length + 1)
      · have e : a' - a = (a' - (a + 1)) + 1 := by omega
        have h2 : a + 1 ≤ a' ∧ a' < a + 1 + rest.length := by omega
        simp [h1, h2, e]
      · have h2 : ¬ (a + 1 ≤ a' ∧ a' < a + 1 + rest.length) := by omega
        rw [dif_neg h2, dif_neg (by simpa using h1)]
        simp [h0]

/-- Outside the stored bytes a block store changes nothing. -/
theorem State.storeBytes_frame (s : State) (a : Nat) (bs : List Byte) (a' : Nat)
    (h : a' < a ∨ a + bs.length ≤ a') : (s.storeBytes a bs).readByte a' = s.readByte a' := by
  rw [State.storeBytes_readByte, dif_neg (by omega)]

/-- A block store inside the address space keeps the canonical form. -/
theorem State.storeBytes_wf (s : State) (a : Nat) (bs : List Byte) (hb : a + bs.length ≤ Config.memSize)
    (h : Memory.wf s.params.font s.mem = true) : Memory.wf s.params.font (s.storeBytes a bs).mem = true := by
  induction bs generalizing s a with
  | nil => exact h
  | cons b rest ih =>
    simp only [List.length_cons] at hb
    have := ih (s.writeByte a b) (a + 1) (by omega) (Memory.wf_write b (by omega) h)
    simpa [State.storeBytes] using this

end Sys2Proof.Machine
end

