-- ==== Sys2Proof/Laws/Ops.lean ====
section
/-! SUPPORT. What each shared operation can do, said once: the stack, the range check, the key lookup, the fetch, and the
drawing unit. -/

namespace Sys2Proof.Machine

/-! ### The stack (R19) -/

theorem State.push_of_lt (s : State) (a : Word) (h : s.sp.val < 16) :
    s.push a = some { s with stack := s.stack.set s.sp.val a, sp := ⟨s.sp.val + 1, Nat.succ_lt_succ h⟩ } := by
  simp [State.push, h]

theorem State.push_full (s : State) (a : Word) (h : s.sp.val = 16) : s.push a = none := by
  simp [State.push, h]

theorem State.push_cases {s t : State} {a : Word} (h : s.push a = some t) :
    ∃ lt : s.sp.val < 16,
      t = { s with stack := s.stack.set s.sp.val a, sp := ⟨s.sp.val + 1, Nat.succ_lt_succ lt⟩ } := by
  unfold State.push at h
  split_ifs at h with lt
  exact ⟨lt, (Option.some.inj h).symm⟩

theorem State.pop_empty (s : State) (h : s.sp.val = 0) : s.pop = none := by
  simp [State.pop, h]

theorem State.pop_of_pos (s : State) (h : 0 < s.sp.val) :
    s.pop = some (s.stack[s.sp.val - 1]'s.sp_pred_lt,
      { s with sp := ⟨s.sp.val - 1, Nat.lt_succ_of_lt s.sp_pred_lt⟩ }) := by
  simp [State.pop, h]

theorem State.pop_cases {s t : State} {a : Word} (h : s.pop = some (a, t)) :
    0 < s.sp.val ∧
      a = s.stack[s.sp.val - 1]'s.sp_pred_lt ∧
        t = { s with sp := ⟨s.sp.val - 1, Nat.lt_succ_of_lt s.sp_pred_lt⟩ } := by
  unfold State.pop at h
  split_ifs at h with pos
  obtain ⟨rfl, rfl⟩ := Prod.mk.inj (Option.some.inj h)
  exact ⟨pos, rfl, rfl⟩

/-! ### Loading (R133) -/

/-- An image that fits changes memory and shuts the load window, and nothing else. -/
theorem State.loadProgram_fits (s : State) {image : List Byte} (h : image.length ≤ Config.maxProgram) :
    s.loadProgram image = { s with mem := (s.storeBytes Config.progBase image).mem, boot := .loaded } := by
  rw [State.loadProgram, if_pos (by simpa [imageFits] using h), State.storeBytes_eq]

/-- A longer image changes the load window only. -/
theorem State.loadProgram_tooLong (s : State) {image : List Byte} (h : Config.maxProgram < image.length) :
    s.loadProgram image = { s with boot := .outOfSpace image.length } := by
  rw [State.loadProgram, if_neg (by simpa [imageFits] using h)]

/-! ### Range checks and keys -/

theorem State.rangeFault_some {s : State} {len a : Nat} (h : s.rangeFault len = some a) :
    0 < len ∧ Config.memSize ≤ s.baseAddr + (len - 1) ∧ a = max s.baseAddr Config.memSize := by
  unfold State.rangeFault at h
  split_ifs at h with c
  exact ⟨c.1, c.2, (Option.some.inj h).symm⟩

theorem State.rangeFault_none {s : State} {len : Nat} (h : s.rangeFault len = none) :
    len = 0 ∨ s.baseAddr + len ≤ Config.memSize := by
  unfold State.rangeFault at h
  split_ifs at h with c
  omega

theorem State.rangeFault_inside (s : State) {len : Nat} (h : s.baseAddr + (len - 1) < Config.memSize) :
    s.rangeFault len = none := by
  unfold State.rangeFault
  rw [if_neg (by omega)]

theorem State.rangeFault_outside (s : State) {len : Nat} (hl : 0 < len) (h : Config.memSize ≤ s.baseAddr + (len - 1)) :
    s.rangeFault len = some (max s.baseAddr Config.memSize) := by
  unfold State.rangeFault
  rw [if_pos ⟨hl, h⟩]

theorem State.keyOf_of_lt (s : State) (x : Reg) (h : (s.reg x).toNat < 16) : s.keyOf x = some ⟨(s.reg x).toNat, h⟩ := by
  simp [State.keyOf, h]

theorem State.keyOf_none (s : State) (x : Reg) (h : 15 < (s.reg x).toNat) : s.keyOf x = none := by
  unfold State.keyOf
  rw [dif_neg (Nat.not_lt.mpr h)]

/-! ### Lists of bytes -/

theorem State.regsUpTo_length (s : State) (x : Reg) : (s.regsUpTo x).length = x.val + 1 := by
  simp [State.regsUpTo]

theorem State.regsUpTo_get (s : State) (x r : Reg) (h : r ≤ x) :
    (s.regsUpTo x)[r.val]'(by rw [State.regsUpTo_length]; exact Nat.lt_succ_of_le h) = s.reg r := by
  simp [State.regsUpTo, State.reg]

theorem State.readBytes_length (s : State) (a n : Nat) : (s.readBytes a n).length = n := by
  simp [State.readBytes]

theorem State.readBytes_get (s : State) (a n k : Nat) (h : k < (s.readBytes a n).length) :
    (s.readBytes a n)[k] = s.readByte (a + k) := by
  simp [State.readBytes]

theorem bcdDigits_length (b : Byte) : (bcdDigits b).length = 3 := rfl

/-! ### Fetch (R37) -/

theorem State.fetchWord_toNat (s : State) :
    s.fetchWord.toNat = (s.readByte s.pc.toNat).toNat * 256 + (s.readByte (s.pc.toNat + 1)).toNat :=
  mergeBytes_toNat _ _

/-! ### Drawing (R97, R99) -/

@[simp] theorem wrapX_val (a : Nat) : (wrapX a).val = a % 64 := rfl

@[simp] theorem wrapY_val (a : Nat) : (wrapY a).val = a % 32 := rfl

/-- The first `m` columns of a row: each set bit flips its own cell once, and a lit cell among them is a collision. -/
theorem drawColumns_spec (b : Byte) (cx cy : Nat) (d : Drawing) (m : Nat) (hm : m ≤ 8) :
    let e := (List.range m).foldl
      (fun d c => if spriteBit b c then drawCell (wrapX (cx + c)) (wrapY cy) d else d) d
    (∀ px py, (e.fb.cell px py = true ↔
        (d.fb.cell px py = true ↔ ¬ ∃ c, c < m ∧ spriteBit b c = true ∧ wrapX (cx + c) = px ∧ wrapY cy = py))) ∧
      (e.collision = true ↔ d.collision = true ∨
        ∃ c, c < m ∧ spriteBit b c = true ∧ d.fb.cell (wrapX (cx + c)) (wrapY cy) = true) := by
  induction m with
  | zero => simp
  | succ m ih =>
    obtain ⟨ihc, ihk⟩ := ih (by omega)
    simp only [List.range_succ, List.foldl_append, List.foldl_cons, List.foldl_nil]
    generalize (List.range m).foldl
      (fun d c => if spriteBit b c then drawCell (wrapX (cx + c)) (wrapY cy) d else d) d = e at ihc ihk ⊢
    have fresh : ¬ ∃ c, c < m ∧ spriteBit b c = true ∧ wrapX (cx + c) = wrapX (cx + m) ∧ wrapY cy = wrapY cy := by
      rintro ⟨c, hc, -, hx, -⟩
      have := congrArg Fin.val hx
      simp only [wrapX_val] at this
      omega
    have lt_succ : ∀ P : Nat → Prop, (∃ c, c < m + 1 ∧ P c) ↔ (∃ c, c < m ∧ P c) ∨ P m := by
      intro P
      constructor
      · rintro ⟨c, hc, p⟩
        rcases Nat.lt_succ_iff_lt_or_eq.mp hc with h | rfl
        · exact .inl ⟨c, h, p⟩
        · exact .inr p
      · rintro (⟨c, hc, p⟩ | p)
        · exact ⟨c, Nat.lt_succ_of_lt hc, p⟩
        · exact ⟨m, Nat.lt_succ_self m, p⟩
    have hcell : e.fb.cell (wrapX (cx + m)) (wrapY cy) = true ↔ d.fb.cell (wrapX (cx + m)) (wrapY cy) = true :=
      (ihc _ _).trans (iff_true_right fresh)
    by_cases hb : spriteBit b m = true
    · simp only [hb, if_true, drawCell, lt_succ, true_and]
      constructor
      · intro px py
        by_cases hp : wrapX (cx + m) = px ∧ wrapY cy = py
        · obtain ⟨rfl, rfl⟩ := hp
          simp only [Frame.flip_cell, and_self, if_true, or_true, not_true_eq_false, iff_false, Bool.not_eq_true', ← hcell,
            Bool.not_eq_true]
        · have hp' : ¬ (px = wrapX (cx + m) ∧ py = wrapY cy) := fun h => hp ⟨h.1.symm, h.2.symm⟩
          simp only [Frame.flip_cell, hp, hp', if_false, or_false, ihc px py]
      · simp only [Bool.or_eq_true, ihk, hcell, or_assoc]
    · rw [Bool.not_eq_true] at hb
      simp only [hb, Bool.false_eq_true, if_false, lt_succ, false_and, or_false]
      exact ⟨ihc, ihk⟩

/-- A whole row. -/
theorem drawRow_spec (b : Byte) (cx cy : Nat) (d : Drawing) :
    (∀ px py, ((drawRow b cx cy d).fb.cell px py = true ↔
        (d.fb.cell px py = true ↔ ¬ ∃ c, c < 8 ∧ spriteBit b c = true ∧ wrapX (cx + c) = px ∧ wrapY cy = py))) ∧
      ((drawRow b cx cy d).collision = true ↔ d.collision = true ∨
        ∃ c, c < 8 ∧ spriteBit b c = true ∧ d.fb.cell (wrapX (cx + c)) (wrapY cy) = true) :=
  drawColumns_spec b cx cy d 8 (Nat.le_refl 8)

/-- The bit of a list of sprite rows that falls on a cell. -/
def rowsLit (cx cy : Nat) (bs : List Byte) (px : Fin 64) (py : Fin 32) : Prop :=
  ∃ r c : Nat, ∃ h : r < bs.length, c < 8 ∧ spriteBit bs[r] c = true ∧ wrapX (cx + c) = px ∧ wrapY (cy + r) = py

theorem rowsLit_cons (cx cy : Nat) (b : Byte) (bs : List Byte) (px : Fin 64) (py : Fin 32) :
    rowsLit cx cy (b :: bs) px py ↔
      (∃ c, c < 8 ∧ spriteBit b c = true ∧ wrapX (cx + c) = px ∧ wrapY cy = py) ∨ rowsLit cx (cy + 1) bs px py := by
  constructor
  · rintro ⟨r, c, h, hc, hb, hx, hy⟩
    cases r with
    | zero => exact .inl ⟨c, hc, hb, hx, hy⟩
    | succ r => exact .inr ⟨r, c, Nat.lt_of_succ_lt_succ h, hc, hb, hx, by rw [← hy]; congr 1; omega⟩
  · rintro (⟨c, hc, hb, hx, hy⟩ | ⟨r, c, h, hc, hb, hx, hy⟩)
    · exact ⟨0, c, Nat.succ_pos _, hc, hb, hx, hy⟩
    · exact ⟨r + 1, c, Nat.succ_lt_succ h, hc, hb, hx, by rw [← hy]; congr 1; omega⟩

/-- Flipping where `p` holds and then where `q` holds, never both, is flipping where either holds. -/
theorem flip_or {a p q : Prop} (h : p → ¬ q) : ((a ↔ ¬ p) ↔ ¬ q) ↔ (a ↔ ¬ (p ∨ q)) := by
  by_cases hp : p <;> by_cases hq : q <;> simp_all

/-- A sprite of fewer than 32 rows: every cell that a set bit falls on flips once, no other cell changes, and there is a
collision exactly when one of those cells was lit. -/
theorem drawRows_spec (cx cy : Nat) (bs : List Byte) (d : Drawing) (hlen : bs.length < 32) :
    (∀ px py, ((drawRows cx cy bs d).fb.cell px py = true ↔ (d.fb.cell px py = true ↔ ¬ rowsLit cx cy bs px py))) ∧
      ((drawRows cx cy bs d).collision = true ↔ d.collision = true ∨
        ∃ px py, d.fb.cell px py = true ∧ rowsLit cx cy bs px py) := by
  induction bs generalizing cy d with
  | nil =>
    have : ∀ px py, ¬ rowsLit cx cy [] px py := by
      rintro px py ⟨r, c, h, -⟩
      exact Nat.not_lt_zero _ h
    simp [drawRows, this]
  | cons b bs ih =>
    simp only [List.length_cons] at hlen
    obtain ⟨rc, rk⟩ := drawRow_spec b cx cy d
    obtain ⟨ihc, ihk⟩ := ih (cy + 1) (drawRow b cx cy d) (by omega)
    have apart : ∀ px py, (∃ c, c < 8 ∧ spriteBit b c = true ∧ wrapX (cx + c) = px ∧ wrapY cy = py) →
        ¬ rowsLit cx (cy + 1) bs px py := by
      rintro px py ⟨c, -, -, -, hy⟩ ⟨r, c', hr, -, -, -, hy'⟩
      have := congrArg Fin.val (hy.trans hy'.symm)
      simp only [wrapY_val] at this
      omega
    simp only [drawRows]
    constructor
    · intro px py
      rw [ihc, rc, rowsLit_cons]
      exact flip_or (apart px py)
    · rw [ihk, rk]
      constructor
      · rintro ((h | ⟨c, hc, hb, hl⟩) | ⟨px, py, hl, hr⟩)
        · exact .inl h
        · exact .inr ⟨_, _, hl, (rowsLit_cons ..).mpr (.inl ⟨c, hc, hb, rfl, rfl⟩)⟩
        · have notRow := fun h => apart px py h hr
          exact .inr ⟨px, py, ((rc px py).mp hl).mpr notRow, (rowsLit_cons ..).mpr (.inr hr)⟩
      · rintro (h | ⟨px, py, hl, hr⟩)
        · exact .inl (.inl h)
        · rcases (rowsLit_cons ..).mp hr with ⟨c, hc, hb, hx, hy⟩ | hr
          · exact .inl (.inr ⟨c, hc, hb, by rw [hx, hy]; exact hl⟩)
          · have notRow := fun h => apart px py h hr
            exact .inr ⟨px, py, (rc px py).mpr (iff_of_true hl notRow), hr⟩

end Sys2Proof.Machine
end

