-- ==== Sys2Proof/Laws/Cycle.lean ====
section
/-! SUPPORT. What a step can do, said once: by the host's input, by the run status, and around an instruction's execution. -/

namespace Sys2Proof.Machine

/-- The state a running step executes its instruction in: the input taken, the poll applied, `refresh` low, the load window
shut (R108, R109). -/
def State.polled (s : State) (events : List HostEvent) : State :=
  { s with inputs := s.inputs.tail, keys := pollKeys events s.keys, refresh := false, boot := .loaded }

/-! ### By input -/

theorem step_poll {s : State} {es : List HostEvent} (h : s.nextInput = .poll es) : step s = loopCycle es s := by
  unfold step cycle
  rw [h]

theorem step_reset {s : State} (h : s.nextInput = .reset) : step s = .next s.takeInput.resetBlock := by
  unfold step cycle
  rw [h]
  rfl

theorem step_load {s : State} {image : List Byte} (h : s.nextInput = .load image) :
    step s = if s.boot = .fresh then .next (s.takeInput.loadProgram image) else .refused .loadNotAfterReset := by
  unfold step cycle
  rw [h]
  rfl

/-! ### By run status -/

theorem loopCycle_started {s : State} (es : List HostEvent) (h : ∀ len, s.boot ≠ .outOfSpace len) :
    loopCycle es s =
      match s.rs with
      | .running => runningCycle es s.beginCycle
      | .awaitingKey x => .next (waitingCycle x es s.beginCycle)
      | .quit => .fault .runQuit
      | .faulted rec => .fault (.runFaulted rec) := by
  unfold loopCycle
  split
  · next len hb => exact absurd hb (h len)
  · rfl
  · rfl

theorem loopCycle_running {s : State} (es : List HostEvent) (h : ∀ len, s.boot ≠ .outOfSpace len) (hr : s.rs = .running) :
    loopCycle es s = if closes es then .next { s.polled es with rs := .quit } else fetchCycle (s.polled es) := by
  rw [loopCycle_started es h, hr]
  rfl

theorem loopCycle_waiting {s : State} (es : List HostEvent) (h : ∀ len, s.boot ≠ .outOfSpace len) {x : Reg}
    (hr : s.rs = .awaitingKey x) : loopCycle es s = .next (waitingCycle x es s.beginCycle) := by
  rw [loopCycle_started es h, hr]

/-! ### Fetch -/

theorem fetchCycle_outside {s : State} (h : Config.memSize ≤ s.pc.toNat + 1) :
    fetchCycle s = .next (s.raise .programCounterOutOfBounds none (some s.pc.toNat)) := by
  unfold fetchCycle
  rw [if_pos h]

theorem fetchCycle_illegal {s : State} {e : DecodeError} (h : s.pc.toNat + 1 < Config.memSize)
    (hd : decodeWord s.fetchWord = .error e) :
    fetchCycle s = .next (s.raise .invalidOpcode (some s.fetchWord) none) := by
  unfold fetchCycle
  rw [if_neg (Nat.not_le_of_lt h), hd]

theorem fetchCycle_runs {s : State} {i : Instr} (h : s.pc.toNat + 1 < Config.memSize) (hd : decodeWord s.fetchWord = .ok i) :
    fetchCycle s = settleResult (exec i s) := by
  unfold fetchCycle
  rw [if_neg (Nat.not_le_of_lt h), hd]

/-- What a fetch can do: fault on `PC`, fault on the word, or run the decoded instruction (R118). -/
theorem fetchCycle_cases (s : State) :
    fetchCycle s = .next (s.raise .programCounterOutOfBounds none (some s.pc.toNat)) ∧ 0xFFE < s.pc.toNat ∨
      fetchCycle s = .next (s.raise .invalidOpcode (some s.fetchWord) none) ∧ s.pc.toNat ≤ 0xFFE ∧
        (∃ e, decodeWord s.fetchWord = .error e) ∨
      ∃ i, fetchCycle s = settleResult (exec i s) ∧ s.pc.toNat ≤ 0xFFE ∧ decodeWord s.fetchWord = .ok i := by
  by_cases h : Config.memSize ≤ s.pc.toNat + 1
  · exact .inl ⟨fetchCycle_outside h, by simp only [Config.memSize] at h; omega⟩
  · have h' := Nat.lt_of_not_le h
    have hp : s.pc.toNat ≤ 0xFFE := by simp only [Config.memSize] at h'; omega
    cases hd : decodeWord s.fetchWord with
    | error e => exact .inr (.inl ⟨fetchCycle_illegal h' hd, hp, e, rfl⟩)
    | ok i => exact .inr (.inr ⟨i, fetchCycle_runs h' hd, hp, rfl⟩)

/-! ### Around an instruction -/

theorem State.settle_running {s : State} (h : s.rs = .running) : s.settle = s.complete := by
  unfold State.settle
  rw [if_pos h]

theorem State.settle_other {s : State} (h : s.rs ≠ .running) : s.settle = s := by
  unfold State.settle
  rw [if_neg h]

@[simp] theorem settleResult_next (s : State) : settleResult (.next s) = .next s.settle := rfl

/-! ### The key wait -/

theorem byteOfKey_toNat (k : Key) : (byteOfKey k).toNat = k.val := by
  have := k.isLt
  rw [byteOfKey, BitVec.toNat_ofNat]
  omega

theorem State.completeKey_reg (s : State) (x : Reg) (k : Key) (r : Reg) :
    (s.completeKey x k).reg r = if r = x then byteOfKey k else s.reg r :=
  State.setReg_reg (s.setKey k true) x (byteOfKey k) r

theorem State.completeKey_key (s : State) (x : Reg) (k j : Key) :
    (s.completeKey x k).key j = if j = k then true else s.key j :=
  State.setKey_key s k true j

/-- Leaving events for the next step changes the coming inputs alone. -/
theorem State.leaveEvents_eq (s : State) (rest : List HostEvent) :
    s.leaveEvents rest = { s with inputs := (s.leaveEvents rest).inputs } := by
  cases rest <;> rfl

end Sys2Proof.Machine
end

