-- ==== Sys2Proof/Laws/PerInstr.lean ====
section
/-! SUPPORT. The family TableRow: the word of every instruction holds the fixed bits of its row of spec/opcode_table.json. -/

namespace Sys2Proof.Laws.TableRow

/-- The fixed fields of an instruction's row, each with its highest bit, its lowest bit and its value. -/
def fixedFields : Instr → List (Nat × Nat × Nat)
  | .cls => [(15, 0, 0xE0)]
  | .ret => [(15, 0, 0xEE)]
  | .jpNNN _ => [(15, 12, 0x1)]
  | .callNNN _ => [(15, 12, 0x2)]
  | .seXNN _ _ => [(15, 12, 0x3)]
  | .sneXNN _ _ => [(15, 12, 0x4)]
  | .seXY _ _ _ => [(15, 12, 0x5)]
  | .ldXNN _ _ => [(15, 12, 0x6)]
  | .addXNN _ _ => [(15, 12, 0x7)]
  | .ldXY _ _ => [(3, 0, 0x0), (15, 12, 0x8)]
  | .orXY _ _ => [(3, 0, 0x1), (15, 12, 0x8)]
  | .andXY _ _ => [(3, 0, 0x2), (15, 12, 0x8)]
  | .xorXY _ _ => [(3, 0, 0x3), (15, 12, 0x8)]
  | .addXY _ _ => [(3, 0, 0x4), (15, 12, 0x8)]
  | .subXY _ _ => [(3, 0, 0x5), (15, 12, 0x8)]
  | .shrXY _ _ => [(3, 0, 0x6), (15, 12, 0x8)]
  | .subnXY _ _ => [(3, 0, 0x7), (15, 12, 0x8)]
  | .shlXY _ _ => [(3, 0, 0xE), (15, 12, 0x8)]
  | .sneXY _ _ _ => [(15, 12, 0x9)]
  | .ldINNN _ => [(15, 12, 0xA)]
  | .jpV0NNN _ => [(15, 12, 0xB)]
  | .rndXNN _ _ => [(15, 12, 0xC)]
  | .drwXYN _ _ _ => [(15, 12, 0xD)]
  | .skpX _ => [(7, 0, 0x9E), (15, 12, 0xE)]
  | .sknpX _ => [(7, 0, 0xA1), (15, 12, 0xE)]
  | .ldXDT _ => [(7, 0, 0x7), (15, 12, 0xF)]
  | .ldXK _ => [(7, 0, 0xA), (15, 12, 0xF)]
  | .ldDTX _ => [(7, 0, 0x15), (15, 12, 0xF)]
  | .ldSTX _ => [(7, 0, 0x18), (15, 12, 0xF)]
  | .addIX _ => [(7, 0, 0x1E), (15, 12, 0xF)]
  | .ldFX _ => [(7, 0, 0x29), (15, 12, 0xF)]
  | .ldBX _ => [(7, 0, 0x33), (15, 12, 0xF)]
  | .ldIX _ => [(7, 0, 0x55), (15, 12, 0xF)]
  | .ldXI _ => [(7, 0, 0x65), (15, 12, 0xF)]

/-- The fixed field, from its highest to its lowest bit, has its value in the number `n`. -/
def Holds (n : Nat) (f : Nat × Nat × Nat) : Prop := n / 2 ^ f.2.1 % 2 ^ (f.1 + 1 - f.2.1) = f.2.2

/-- Every fixed field of the row stands in the instruction's word, whatever its operands are. -/
def Statement (i : Instr) : Prop :=
  ∀ f ∈ fixedFields i, Holds (encode i).toNat f

theorem group_packNNN (g : Nat) (hg : g < 16) (nnn : BitVec 12) : ∀ f ∈ [(15, 12, g)], Holds (packNNN g nnn).toNat f := by
  have := nnn.isLt
  simp [Holds, packNNN_toNat hg]
  omega

theorem group_packXNN (g : Nat) (hg : g < 16) (x : Reg) (nn : Byte) :
    ∀ f ∈ [(15, 12, g)], Holds (packXNN g x nn).toNat f := by
  have := x.isLt; have := nn.isLt
  simp [Holds, packXNN_toNat hg]
  omega

theorem group_packXYN (g : Nat) (hg : g < 16) (x y : Reg) (n : BitVec 4) :
    ∀ f ∈ [(15, 12, g)], Holds (packXYN g x y n).toNat f := by
  have := x.isLt; have := y.isLt; have := n.isLt
  simp [Holds, packXYN_toNat hg]
  omega

theorem selector_packXNN (g : Nat) (hg : g < 16) (x : Reg) (nn : Byte) :
    ∀ f ∈ [(7, 0, nn.toNat), (15, 12, g)], Holds (packXNN g x nn).toNat f := by
  have := x.isLt; have := nn.isLt
  simp [Holds, packXNN_toNat hg]
  omega

theorem selector_packXYN (g : Nat) (hg : g < 16) (x y : Reg) (n : BitVec 4) :
    ∀ f ∈ [(3, 0, n.toNat), (15, 12, g)], Holds (packXYN g x y n).toNat f := by
  have := x.isLt; have := y.isLt; have := n.isLt
  simp [Holds, packXYN_toNat hg]
  omega

theorem cls : Statement .cls := by simp [Statement, fixedFields, Holds, encode, packNNN, Sel.cls]
theorem ret : Statement .ret := by simp [Statement, fixedFields, Holds, encode, packNNN, Sel.ret]
theorem jpNNN (nnn : BitVec 12) : Statement (.jpNNN nnn) := group_packNNN 0x1 (by decide) nnn
theorem callNNN (nnn : BitVec 12) : Statement (.callNNN nnn) := group_packNNN 0x2 (by decide) nnn
theorem seXNN (x : Reg) (nn : Byte) : Statement (.seXNN x nn) := group_packXNN 0x3 (by decide) x nn
theorem sneXNN (x : Reg) (nn : Byte) : Statement (.sneXNN x nn) := group_packXNN 0x4 (by decide) x nn
theorem seXY (x : Reg) (y : Reg) (z : BitVec 4) : Statement (.seXY x y z) := group_packXYN 0x5 (by decide) x y z
theorem ldXNN (x : Reg) (nn : Byte) : Statement (.ldXNN x nn) := group_packXNN 0x6 (by decide) x nn
theorem addXNN (x : Reg) (nn : Byte) : Statement (.addXNN x nn) := group_packXNN 0x7 (by decide) x nn
theorem ldXY (x : Reg) (y : Reg) : Statement (.ldXY x y) := selector_packXYN 0x8 (by decide) x y 0x0
theorem orXY (x : Reg) (y : Reg) : Statement (.orXY x y) := selector_packXYN 0x8 (by decide) x y 0x1
theorem andXY (x : Reg) (y : Reg) : Statement (.andXY x y) := selector_packXYN 0x8 (by decide) x y 0x2
theorem xorXY (x : Reg) (y : Reg) : Statement (.xorXY x y) := selector_packXYN 0x8 (by decide) x y 0x3
theorem addXY (x : Reg) (y : Reg) : Statement (.addXY x y) := selector_packXYN 0x8 (by decide) x y 0x4
theorem subXY (x : Reg) (y : Reg) : Statement (.subXY x y) := selector_packXYN 0x8 (by decide) x y 0x5
theorem shrXY (x : Reg) (y : Reg) : Statement (.shrXY x y) := selector_packXYN 0x8 (by decide) x y 0x6
theorem subnXY (x : Reg) (y : Reg) : Statement (.subnXY x y) := selector_packXYN 0x8 (by decide) x y 0x7
theorem shlXY (x : Reg) (y : Reg) : Statement (.shlXY x y) := selector_packXYN 0x8 (by decide) x y 0xE
theorem sneXY (x : Reg) (y : Reg) (z : BitVec 4) : Statement (.sneXY x y z) := group_packXYN 0x9 (by decide) x y z
theorem ldINNN (nnn : BitVec 12) : Statement (.ldINNN nnn) := group_packNNN 0xA (by decide) nnn
theorem jpV0NNN (nnn : BitVec 12) : Statement (.jpV0NNN nnn) := group_packNNN 0xB (by decide) nnn
theorem rndXNN (x : Reg) (nn : Byte) : Statement (.rndXNN x nn) := group_packXNN 0xC (by decide) x nn
theorem drwXYN (x : Reg) (y : Reg) (n : BitVec 4) : Statement (.drwXYN x y n) := group_packXYN 0xD (by decide) x y n
theorem skpX (x : Reg) : Statement (.skpX x) := selector_packXNN 0xE (by decide) x Sel.skpX
theorem sknpX (x : Reg) : Statement (.sknpX x) := selector_packXNN 0xE (by decide) x Sel.sknpX
theorem ldXDT (x : Reg) : Statement (.ldXDT x) := selector_packXNN 0xF (by decide) x Sel.ldXDT
theorem ldXK (x : Reg) : Statement (.ldXK x) := selector_packXNN 0xF (by decide) x Sel.ldXK
theorem ldDTX (x : Reg) : Statement (.ldDTX x) := selector_packXNN 0xF (by decide) x Sel.ldDTX
theorem ldSTX (x : Reg) : Statement (.ldSTX x) := selector_packXNN 0xF (by decide) x Sel.ldSTX
theorem addIX (x : Reg) : Statement (.addIX x) := selector_packXNN 0xF (by decide) x Sel.addIX
theorem ldFX (x : Reg) : Statement (.ldFX x) := selector_packXNN 0xF (by decide) x Sel.ldFX
theorem ldBX (x : Reg) : Statement (.ldBX x) := selector_packXNN 0xF (by decide) x Sel.ldBX
theorem ldIX (x : Reg) : Statement (.ldIX x) := selector_packXNN 0xF (by decide) x Sel.ldIX
theorem ldXI (x : Reg) : Statement (.ldXI x) := selector_packXNN 0xF (by decide) x Sel.ldXI

end Sys2Proof.Laws.TableRow
end

