-- ==== Sys2Proof/Tests/Slice0.lean ====
section
/-! SUPPORT. Tests. Every expected value comes from spec/: the tables V-DEC to V-RST and the worked examples W1 to W8 of
spec/95_test_vectors.md, or the rule named with the test. The witnesses show that the hypotheses of the statements in
Sys2Proof/Certificates/Slice0/Obligations.lean can be met, clause by clause. -/

namespace Sys2Proof.Tests

-- One theorem at a time: evaluated side by side, they would need more memory than a check gives.
set_option Elab.async false

open Sys2Proof.Machine

/-! ### The start states (TIMER_DIVISOR = 10, as in spec/95_test_vectors.md) -/

/-- Just after a reset, the load window open. -/
def fresh : State := { State.reset with params := { timerDivisor := 10, font := Config.fontDefault } }

/-- After a load. -/
def base : State := { fresh with boot := .loaded }

/-- The base state with these registers written, in order. -/
def withRegs : List (Reg × Byte) → State
  | [] => base
  | (x, b) :: rest => (withRegs rest).setReg x b

/-- The base state with these bytes at 0x300, and `I` pointing there. -/
def withBytes (s : State) (bytes : List Byte) : State := (s.storeBytes 0x300 bytes).setIndex 0x300

/-- The next state of a result. -/
def nextOf : Result → Option State
  | .next t => some t
  | .fault _ => none
  | .refused _ => none

/-- The next state of a result, or the state before it. -/
def after (s : State) (r : Result) : State := (nextOf r).getD s

theorem eq_next_after (s : State) {r : Result} (h : (nextOf r).isSome = true) : r = .next (after s r) := by
  cases r with
  | next t => rfl
  | fault f => exact absurd h Bool.false_ne_true
  | refused f => exact absurd h Bool.false_ne_true

/-- One step of `s` with the word `w` placed where it fetches, and these events at its poll. -/
def runWith (events : List HostEvent) (s : State) (w : Nat) : Option State :=
  nextOf (step { s.withFetchWord 16 w with inputs := [.poll events] })

/-- One step of `s` with the word `w` placed where it fetches, and no event. -/
def run (s : State) (w : Nat) : Option State := runWith [] s w

/-- The fault record of a state. -/
def recordOf (s : State) : Option FaultRecord :=
  match s.rs with
  | .faulted rec => some rec
  | .running => none
  | .awaitingKey _ => none
  | .quit => none

/-! ### WellFormed: ill-formed terms are refused -/

theorem test_canonical_refuses_5XY1 : (Instr.seXY 1 2 1).canonical = false := by decide
theorem test_canonical_refuses_9XY7 : (Instr.sneXY 1 2 7).canonical = false := by decide
theorem test_canonical_accepts_5XY0 : (Instr.seXY 1 2 0).canonical = true := by decide
theorem test_image_of_3584_fits : imageFits (List.replicate 3584 0) = true := by
  rw [imageFits, List.length_replicate]
  decide
theorem test_image_of_3585_refused : imageFits (List.replicate 3585 0) = false := by
  rw [imageFits, List.length_replicate]
  decide

/-! ### Decode: one word of every row, written out bit by bit from its encoding -/

theorem test_decode_cls : decodeWord 0b0000000011100000 = .ok .cls := by decide
theorem test_decode_ret : decodeWord 0b0000000011101110 = .ok .ret := by decide
theorem test_decode_jp : decodeWord 0b0001101010111100 = .ok (.jpNNN 0xABC) := by decide
theorem test_decode_call : decodeWord 0b0010001100000001 = .ok (.callNNN 0x301) := by decide
theorem test_decode_seXNN : decodeWord 0b0011001101000010 = .ok (.seXNN 3 0x42) := by decide
theorem test_decode_sneXNN : decodeWord 0b0100110010000001 = .ok (.sneXNN 0xC 0x81) := by decide
theorem test_decode_seXY : decodeWord 0b0101000100100001 = .ok (.seXY 1 2 1) := by decide
theorem test_decode_ldXNN : decodeWord 0b0110100000000101 = .ok (.ldXNN 8 0x05) := by decide
theorem test_decode_addXNN : decodeWord 0b0111000111111110 = .ok (.addXNN 1 0xFE) := by decide
theorem test_decode_ldXY : decodeWord 0b1000101001010000 = .ok (.ldXY 0xA 5) := by decide
theorem test_decode_orXY : decodeWord 0b1000000100100001 = .ok (.orXY 1 2) := by decide
theorem test_decode_andXY : decodeWord 0b1000111000110010 = .ok (.andXY 0xE 3) := by decide
theorem test_decode_xorXY : decodeWord 0b1000010011010011 = .ok (.xorXY 4 0xD) := by decide
theorem test_decode_addXY : decodeWord 0b1000000100100100 = .ok (.addXY 1 2) := by decide
theorem test_decode_subXY : decodeWord 0b1000011110000101 = .ok (.subXY 7 8) := by decide
theorem test_decode_shrXY : decodeWord 0b1000100100010110 = .ok (.shrXY 9 1) := by decide
theorem test_decode_subnXY : decodeWord 0b1000001011110111 = .ok (.subnXY 2 0xF) := by decide
theorem test_decode_shlXY : decodeWord 0b1000101101101110 = .ok (.shlXY 0xB 6) := by decide
theorem test_decode_sneXY : decodeWord 0b1001000100100111 = .ok (.sneXY 1 2 7) := by decide
theorem test_decode_ldI : decodeWord 0b1010110100000011 = .ok (.ldINNN 0xD03) := by decide
theorem test_decode_jpV0 : decodeWord 0b1011000100100011 = .ok (.jpV0NNN 0x123) := by decide
theorem test_decode_rnd : decodeWord 0b1100000100001111 = .ok (.rndXNN 1 0x0F) := by decide
theorem test_decode_drw : decodeWord 0b1101000100100011 = .ok (.drwXYN 1 2 3) := by decide
theorem test_decode_skp : decodeWord 0b1110010110011110 = .ok (.skpX 5) := by decide
theorem test_decode_sknp : decodeWord 0b1110000110100001 = .ok (.sknpX 1) := by decide
theorem test_decode_ldXDT : decodeWord 0b1111011000000111 = .ok (.ldXDT 6) := by decide
theorem test_decode_ldXK : decodeWord 0b1111000000001010 = .ok (.ldXK 0) := by decide
theorem test_decode_ldDT : decodeWord 0b1111101000010101 = .ok (.ldDTX 0xA) := by decide
theorem test_decode_ldST : decodeWord 0b1111001100011000 = .ok (.ldSTX 3) := by decide
theorem test_decode_addI : decodeWord 0b1111110000011110 = .ok (.addIX 0xC) := by decide
theorem test_decode_ldF : decodeWord 0b1111000100101001 = .ok (.ldFX 1) := by decide
theorem test_decode_ldB : decodeWord 0b1111001000110011 = .ok (.ldBX 2) := by decide
theorem test_decode_ldIX : decodeWord 0b1111111101010101 = .ok (.ldIX 0xF) := by decide
theorem test_decode_ldXI : decodeWord 0b1111111101100101 = .ok (.ldXI 0xF) := by decide

/-- The illegal words of the table V-DEC. -/
theorem test_decode_illegal_words :
    decodeWord 0x0000 = .error (.invalidOpcode 0x0000) ∧ decodeWord 0x00E1 = .error (.invalidOpcode 0x00E1) ∧
      decodeWord 0x0123 = .error (.invalidOpcode 0x0123) ∧ decodeWord 0x8008 = .error (.invalidOpcode 0x8008) ∧
      decodeWord 0x800D = .error (.invalidOpcode 0x800D) ∧ decodeWord 0x800F = .error (.invalidOpcode 0x800F) ∧
      decodeWord 0xE09F = .error (.invalidOpcode 0xE09F) ∧ decodeWord 0xF000 = .error (.invalidOpcode 0xF000) ∧
      decodeWord 0xF01F = .error (.invalidOpcode 0xF01F) ∧ decodeWord 0xFFFF = .error (.invalidOpcode 0xFFFF) := by decide

theorem test_decode_one_byte_is_truncated : decodeBytes [0x60] = .error (.truncated 1) := by decide

/-- W4: the fields of 0xD123, counted from the most significant bit. -/
theorem test_fields_of_D123 :
    field 0xD123 0 4 = 0xD ∧ field 0xD123 4 4 = 0x1 ∧ field 0xD123 8 4 = 0x2 ∧ field 0xD123 12 4 = 0x3 ∧
      field 0xD123 8 8 = 0x23 ∧ field 0xD123 4 12 = 0x123 := by decide

theorem test_table_word_of_addXY : decodeTableWord 16 0x8124 = some (.addXY 1 2) := by decide
theorem test_table_word_of_drw : decodeTableWord 16 0xD015 = some (.drwXYN 0 1 5) := by decide

/-- The mask and the match of every row of spec/opcode_table.json. -/
def rows : List (Nat × Nat) :=
  [(0xFFFF, 0x00E0), (0xFFFF, 0x00EE), (0xF000, 0x1000), (0xF000, 0x2000), (0xF000, 0x3000), (0xF000, 0x4000),
   (0xF000, 0x5000), (0xF000, 0x6000), (0xF000, 0x7000), (0xF00F, 0x8000), (0xF00F, 0x8001), (0xF00F, 0x8002)] ++
  [(0xF00F, 0x8003), (0xF00F, 0x8004), (0xF00F, 0x8005), (0xF00F, 0x8006), (0xF00F, 0x8007), (0xF00F, 0x800E),
   (0xF000, 0x9000), (0xF000, 0xA000), (0xF000, 0xB000), (0xF000, 0xC000), (0xF000, 0xD000)] ++
  [(0xF0FF, 0xE09E), (0xF0FF, 0xE0A1), (0xF0FF, 0xF007), (0xF0FF, 0xF00A), (0xF0FF, 0xF015), (0xF0FF, 0xF018),
   (0xF0FF, 0xF01E), (0xF0FF, 0xF029), (0xF0FF, 0xF033), (0xF0FF, 0xF055), (0xF0FF, 0xF065)]

/-- No word belongs to two rows: any two rows differ in a bit that both fix. -/
theorem test_rows_do_not_overlap : rows.Pairwise fun p q => p.2 &&& q.1 ≠ q.2 &&& p.1 := by decide +kernel

/-! ### Control flow (V-CF) -/

theorem test_jp_odd_target : (run base 0x1201).map (·.pc) = some 0x201 := by decide +kernel

theorem test_call_pushes_its_own_address :
    (run base 0x2300).map (fun t => (t.stack[0], t.sp.val, t.pc)) = some (0x200, 1, 0x300) := by decide +kernel

theorem test_call_overflow :
    (run { base with sp := 16 } 0x2300).bind recordOf = some ⟨.stackOverflow, 0x200, some 0x2300, none⟩ := by decide +kernel

theorem test_ret_adds_two :
    (run { base with pc := 0x300, sp := 16, stack := base.stack.set 15 0x250 } 0x00EE).map
      (fun t => (t.sp.val, t.pc, t.stack[15])) = some (15, 0x252, 0x250) := by decide +kernel

theorem test_ret_underflow :
    (run { base with pc := 0x300 } 0x00EE).bind recordOf = some ⟨.stackUnderflow, 0x300, some 0x00EE, none⟩ := by
  decide +kernel

theorem test_seXNN_skips : (run (withRegs [(3, 0x42)]) 0x3342).map (·.pc) = some 0x204 := by decide +kernel
theorem test_seXNN_at_FFC : (run { base with pc := 0xFFC } 0x3000).map (·.pc) = some 0x1000 := by decide +kernel
theorem test_sneXNN_skips : (run (withRegs [(3, 0x42)]) 0x4300).map (·.pc) = some 0x204 := by decide +kernel
theorem test_sneXNN_no_skip : (run (withRegs [(3, 0x42)]) 0x4342).map (·.pc) = some 0x202 := by decide +kernel
theorem test_seXY_ignores_low_nibble : (run (withRegs [(1, 7), (2, 7)]) 0x512F).map (·.pc) = some 0x204 := by decide +kernel
theorem test_seXY_no_skip : (run (withRegs [(1, 7), (2, 8)]) 0x5120).map (·.pc) = some 0x202 := by decide +kernel
theorem test_sneXY_skips : (run (withRegs [(1, 7), (2, 8)]) 0x9120).map (·.pc) = some 0x204 := by decide +kernel
theorem test_sneXY_same_register : (run base 0x9110).map (·.pc) = some 0x202 := by decide +kernel
theorem test_jpV0_does_not_wrap : (run (withRegs [(0, 0xFF)]) 0xBFFF).map (·.pc) = some 0x10FE := by decide +kernel

/-! ### Registers (V-ALU, W1 to W3) -/

theorem test_ldXNN_vf : (run base 0x6FAA).map (·.reg 0xF) = some 0xAA := by decide +kernel
theorem test_addXNN_no_carry :
    (run (withRegs [(1, 0xFF)]) 0x7101).map (fun t => (t.reg 1, t.reg 0xF)) = some (0x00, 0x00) := by decide +kernel
theorem test_ldXY : (run (withRegs [(2, 0x33)]) 0x8120).map (·.reg 1) = some 0x33 := by decide +kernel
theorem test_orXY_leaves_flag :
    (run (withRegs [(1, 0x0F), (2, 0xF0), (0xF, 7)]) 0x8121).map (fun t => (t.reg 1, t.reg 0xF)) = some (0xFF, 7) := by
  decide +kernel
theorem test_andXY_leaves_flag :
    (run (withRegs [(1, 0x3C), (2, 0x0F), (0xF, 7)]) 0x8122).map (fun t => (t.reg 1, t.reg 0xF)) = some (0x0C, 7) := by
  decide +kernel
theorem test_xorXY_leaves_flag :
    (run (withRegs [(1, 0xFF), (2, 0x0F), (0xF, 7)]) 0x8123).map (fun t => (t.reg 1, t.reg 0xF)) = some (0xF0, 7) := by
  decide +kernel
theorem test_addXY_carry :
    (run (withRegs [(1, 0xFF), (2, 0xFF)]) 0x8124).map (fun t => (t.reg 1, t.reg 0xF)) = some (0xFE, 1) := by decide +kernel
theorem test_addXY_flag_wins : (run (withRegs [(0xF, 0xFF), (2, 1)]) 0x8F24).map (·.reg 0xF) = some 1 := by decide +kernel
theorem test_subXY_borrow :
    (run (withRegs [(1, 3), (2, 5)]) 0x8125).map (fun t => (t.reg 1, t.reg 0xF)) = some (0xFE, 0) := by decide +kernel
theorem test_subXY_equal :
    (run (withRegs [(1, 7), (2, 7)]) 0x8125).map (fun t => (t.reg 1, t.reg 0xF)) = some (0x00, 1) := by decide +kernel
theorem test_shrXY_shifts_vx :
    (run (withRegs [(1, 0x05), (2, 0xAA)]) 0x8126).map (fun t => (t.reg 1, t.reg 0xF)) = some (0x02, 1) := by decide +kernel
theorem test_shrXY_flag_wins : (run (withRegs [(0xF, 0x02)]) 0x8F06).map (·.reg 0xF) = some 0 := by decide +kernel
theorem test_subnXY_order :
    (run (withRegs [(1, 3), (2, 5)]) 0x8127).map (fun t => (t.reg 1, t.reg 0xF)) = some (0x02, 1) := by decide +kernel
theorem test_subnXY_borrow :
    (run (withRegs [(1, 5), (2, 3)]) 0x8127).map (fun t => (t.reg 1, t.reg 0xF)) = some (0xFE, 0) := by decide +kernel
theorem test_shlXY_shifts_vx :
    (run (withRegs [(1, 0x81), (2, 0x01)]) 0x812E).map (fun t => (t.reg 1, t.reg 0xF)) = some (0x02, 1) := by decide +kernel
theorem test_shlXY_flag_wins : (run (withRegs [(0xF, 0x40)]) 0x8F0E).map (·.reg 0xF) = some 0 := by decide +kernel
theorem test_rnd_mask_zero : (nextOf (exec (.rndXNN 1 0) base)).map (·.reg 1) = some 0 := by
  show some (((base.countDraw.writeResult 1 (base.randByte &&& 0))).reg 1) = some 0
  rw [show base.randByte &&& 0 = 0 from BitVec.and_zero]
  decide +kernel
theorem test_rnd_takes_one_draw : (run base 0xC1FF).map (·.draws) = some 1 := by decide +kernel

/-! ### Index register and memory (V-MEM) -/

theorem test_ldI : (run base 0xAFFF).map (·.index) = some 0xFFF := by decide +kernel
theorem test_addI_wraps : (run { withRegs [(1, 2)] with index := 0xFFFF } 0xF11E).map (·.index) = some 0x0001 := by
  decide +kernel
theorem test_addI_sets_no_flag :
    (run { withRegs [(1, 1)] with index := 0x0FFF } 0xF11E).map (fun t => (t.index, t.reg 0xF)) = some (0x1000, 0) := by
  decide +kernel
theorem test_ldF : (run (withRegs [(1, 0x0A)]) 0xF129).map (·.index) = some 0x032 := by decide +kernel
theorem test_ldF_is_not_masked : (run (withRegs [(1, 0xFF)]) 0xF129).map (·.index) = some 0x4FB := by decide +kernel
theorem test_ldB_digits :
    (run { withRegs [(2, 156)] with index := 0x300 } 0xF233).map (fun t => (t.readBytes 0x300 3, t.index)) =
      some ([1, 5, 6], 0x300) := by decide +kernel
theorem test_ldB_out_of_bounds :
    (run { base with index := 0xFFE } 0xF233).bind recordOf = some ⟨.memoryOutOfBounds, 0x200, some 0xF233, some 0x1000⟩ := by
  decide +kernel
theorem test_ldIX_stores :
    (run { withRegs [(0, 1), (1, 2)] with index := 0x300 } 0xF155).map (fun t => (t.readBytes 0x300 3, t.index)) =
      some ([1, 2, 0], 0x302) := by decide +kernel
theorem test_ldIX_out_of_bounds :
    (run { base with index := 0xFF1 } 0xFF55).bind recordOf = some ⟨.memoryOutOfBounds, 0x200, some 0xFF55, some 0x1000⟩ := by
  decide +kernel
theorem test_ldXI_loads :
    (run (withBytes base [1, 5, 6]) 0xF265).map (fun t => (t.reg 0, t.reg 1, t.reg 2, t.index)) = some (1, 5, 6, 0x303) := by
  decide +kernel
theorem test_ldXI_out_of_bounds :
    (run { base with index := 0xFFFF } 0xF065).bind recordOf =
      some ⟨.memoryOutOfBounds, 0x200, some 0xF065, some 0xFFFF⟩ := by decide +kernel

/-! ### Display (V-DSP) -/

/-- The lit cells of the first eight columns and six rows. -/
def corner (s : State) : List (Fin 64 × Fin 32) :=
  ([0, 1, 2, 3, 4, 5] : List (Fin 32)).flatMap fun py =>
    (([0, 1, 2, 3, 4, 5, 6, 7] : List (Fin 64)).filter fun px => s.pixel px py).map fun px => (px, py)

theorem test_cls_unlights :
    (run { base with fb := base.fb.flip 5 2, refresh := true } 0x00E0).map (fun t => (t.pixel 5 2, t.refresh)) =
      some (false, false) := by decide +kernel

/-- The glyph 0 at the origin: 14 cells (the row of V-DSP, and P4). -/
theorem test_drw_glyph_0 :
    (run base 0xD015).map (fun t => (corner t, t.reg 0xF, t.refresh)) =
      some ([(0, 0), (1, 0), (2, 0), (3, 0), (0, 1), (3, 1), (0, 2), (3, 2), (0, 3), (3, 3), (0, 4), (1, 4), (2, 4), (3, 4)],
        0, true) := by decide +kernel

/-- Pixels wrap one by one, and a lit cell turned off sets VF. -/
theorem test_drw_wraps_and_collides :
    (run (withBytes { withRegs [(0, 0x3F)] with fb := base.fb.flip 0 0 } [0xC0]) 0xD011).map
      (fun t => (t.pixel 63 0, t.pixel 0 0, t.reg 0xF)) = some (true, false, 1) := by decide +kernel

/-! ### Keys and timers (V-KEY, V-TIM) -/

theorem test_skp_after_press :
    (runWith [.press 5] (withRegs [(1, 5)]) 0xE19E).map (fun t => (t.key 5, t.pc)) = some (true, 0x204) := by decide +kernel
theorem test_skp_index_fault :
    (run (withRegs [(1, 0x10)]) 0xE19E).bind recordOf = some ⟨.keyIndexOutOfRange, 0x200, some 0xE19E, some 0x10⟩ := by
  decide +kernel
theorem test_sknp_skips : (run (withRegs [(1, 5)]) 0xE1A1).map (·.pc) = some 0x204 := by decide +kernel
theorem test_sknp_index_fault :
    (run (withRegs [(1, 0xFF)]) 0xE1A1).bind recordOf = some ⟨.keyIndexOutOfRange, 0x200, some 0xE1A1, some 0xFF⟩ := by
  decide +kernel
theorem test_ldXDT : (run { base with dt := 0x3C } 0xF107).map (·.reg 1) = some 0x3C := by decide +kernel
theorem test_ldDT : (run (withRegs [(1, 0x3C)]) 0xF115).map (·.dt) = some 0x3C := by decide +kernel
theorem test_ldDT_then_decrement :
    (run { withRegs [(1, 5)] with params := { base.params with timerDivisor := 2 }, tc := 1 } 0xF115).map
      (fun t => (t.dt, t.tc)) = some (4, 0) := by decide +kernel
theorem test_ldST_tone : (run (withRegs [(1, 0x1E)]) 0xF118).map (fun t => (t.st, t.tone)) = some (0x1E, true) := by
  decide +kernel
theorem test_ldXK_waits :
    (run { base with dt := 9 } 0xF30A).map (fun t => (t.rs, t.pc, t.tc, t.dt)) = some (.awaitingKey 3, 0x200, 0, 9) := by
  decide +kernel
theorem test_ldXK_completes :
    (nextOf (step { base with rs := .awaitingKey 3, inputs := [.poll [.press 0xB]] })).map
      (fun t => (t.key 0xB, t.reg 3, t.pc, t.rs, t.tc)) = some (true, 0x0B, 0x202, .running, 1) := by decide +kernel

/-! ### The step (V-DEC fetch, V-EXC, V-RST) -/

theorem test_fetch_at_odd_pc : (run { base with pc := 0x201 } 0x6007).map (fun t => (t.reg 0, t.pc)) = some (7, 0x203) := by
  decide +kernel
theorem test_fetch_out_of_bounds :
    (nextOf (step { base with pc := 0xFFF })).bind recordOf =
      some ⟨.programCounterOutOfBounds, 0xFFF, none, some 0xFFF⟩ := by decide +kernel
theorem test_close_stops_the_events :
    (runWith [.press 1, .close, .press 2] base 0x6005).map (fun t => (t.key 1, t.key 2, t.rs, t.reg 0)) =
      some (true, false, .quit, 0) := by decide +kernel
theorem test_illegal_word_keeps_the_poll :
    (runWith [.press 4] base 0x0000).map (fun t => (t.key 4, recordOf t, t.tc)) =
      some (true, some ⟨.invalidOpcode, 0x200, some 0x0000, none⟩, 0) := by decide +kernel
theorem test_reset_state_meets_R29 :
    State.reset.pc = 0x200 ∧ State.reset.readByte 0 = 0xF0 ∧ State.reset.readByte 0x4F = 0x80 ∧
      State.reset.readByte 0x50 = 0 := by decide +kernel
/-- The first instruction runs right after a reset with the program placed. -/
theorem test_step_from_reset : (run State.reset 0x6005).map (fun t => (t.reg 0, t.pc)) = some (5, 0x202) := by decide +kernel
theorem test_load_one_byte :
    (nextOf (step { fresh with inputs := [.load [0x60]] })).map (fun t => (t.fetchWord, t.boot)) =
      some (0x6000, .loaded) := by decide +kernel
theorem test_load_after_the_run_began :
    step { base with inputs := [.load [0x60]] } = .refused .loadNotAfterReset := rfl
theorem test_self_modifying_code :
    (run { withRegs [(0, 0x12), (1, 0)] with index := 0x202 } 0xF155).map (·.fetchWord) = some 0x1200 := by decide +kernel

/-! ### Witnesses: states and operands that meet the hypotheses of the statements, clause by clause -/

theorem witness_EncodeInvertsDecode : decodeWord 0x8124 = .ok (.addXY 1 2) := by decide

/-- No load failed. -/
theorem base_started : ∀ len, base.boot ≠ .outOfSpace len := fun _ h => nomatch h

/-- An illegal word at `PC` in a running step: the base state itself, with a key event at the poll. -/
theorem witness_IllegalWords :
    let s : State := { base with inputs := [.poll [.press 4]] }
    s.nextInput = .poll [.press 4] ∧ closes [.press 4] = false ∧ s.rs = .running ∧ (∀ len, s.boot ≠ .outOfSpace len) ∧
      s.pc.toNat + 1 < 4096 ∧ illegalWord s.fetchWord.toNat = true :=
  ⟨rfl, rfl, rfl, base_started, by decide, by decide +kernel⟩

theorem witness_Ret_pops : ({ base with sp := 16 } : State).sp.val = (15 : Fin 16).val + 1 := rfl
theorem witness_Ret_empty : base.sp.val = 0 := rfl
theorem witness_Call_pushes : ({ base with sp := 15 } : State).sp.val = (15 : Fin 16).val := rfl
theorem witness_Call_full : ({ base with sp := 16 } : State).sp.val = 16 := rfl

/-- The subroutine moved `PC` and wrote a register, and left the stack alone. -/
theorem witness_CallThenReturn :
    ∃ t u : State, base.sp.val < 16 ∧ exec (.callNNN 0x300) base = .next t ∧ u.sp = t.sp ∧ u.stack = t.stack ∧ u ≠ t := by
  refine ⟨after base (exec (.callNNN 0x300) base), (after base (exec (.callNNN 0x300) base)).setPc 0x310, ?_, rfl, rfl, rfl, ?_⟩
  · decide
  · exact fun h => absurd (congrArg State.pc h) (by decide +kernel)

/-- The last base address in bounds, and the first one out of them. -/
theorem witness_Bcd :
    ({ base with index := 0xFFD } : State).baseAddr + 2 < 4096 ∧ ({ base with index := 0xFFE } : State).baseAddr + 2 ≥ 4096 := by
  decide

theorem witness_BlockStore_and_BlockLoad :
    ({ base with index := 0xFF0 } : State).baseAddr + (0xF : Reg).val < 4096 ∧
      ({ base with index := 0xFF1 } : State).baseAddr + (0xF : Reg).val ≥ 4096 := by decide

theorem witness_StoreIsSeen :
    let s : State := { base with index := 0x202 }
    1 ≤ (1 : Reg).val ∧ s.index = s.pc + 2 ∧ s.pc.toNat + 2 + (1 : Reg).val < 4096 ∧
      exec (.ldIX 1) s = .next (after s (exec (.ldIX 1) s)) :=
  ⟨by decide, by decide, by decide, rfl⟩

/-- No row at all with `I` outside memory; the last row at 0xFFF; one row more than fits. -/
theorem witness_Draw_ranges :
    ((0 : BitVec 4).toNat = 0 ∨ ({ base with index := 0x2000 } : State).baseAddr + (0 : BitVec 4).toNat - 1 < 4096) ∧
      ((1 : BitVec 4).toNat = 0 ∨ ({ base with index := 0xFFF } : State).baseAddr + (1 : BitVec 4).toNat - 1 < 4096) ∧
      0 < (2 : BitVec 4).toNat ∧ ({ base with index := 0xFFF } : State).baseAddr + (2 : BitVec 4).toNat - 1 ≥ 4096 := by decide

/-- The glyph 0 on a lit cell (0, 0) collides, at the first bit of its first row. -/
theorem witness_Draw_collision :
    let s : State := { base with fb := base.fb.flip 0 0 }
    ∃ px py, s.pixel px py = true ∧ s.spriteLit 0 1 5 px py :=
  ⟨0, 0, by decide +kernel, 0, 0, by decide, by decide, by decide +kernel, by decide, by decide⟩

/-- On a blank display nothing collides. -/
theorem witness_Draw_no_collision : ¬ ∃ px py, base.pixel px py = true ∧ base.spriteLit 0 1 5 px py := by
  rintro ⟨px, py, h, -⟩
  exact Bool.false_ne_true ((Frame.clear_cell px py).symm.trans h)

theorem witness_DrawTwice :
    let t := after base (exec (.drwXYN 0 1 5) base)
    (0 : Reg) ≠ 0xF ∧ (1 : Reg) ≠ 0xF ∧ base.baseAddr + (5 : BitVec 4).toNat ≤ 4096 ∧
      exec (.drwXYN 0 1 5) base = .next t ∧ exec (.drwXYN 0 1 5) t = .next (after t (exec (.drwXYN 0 1 5) t)) := by
  refine ⟨by decide, by decide, by decide, rfl, ?_⟩
  exact eq_next_after _ (by decide +kernel)

theorem witness_Skp_and_Sknp :
    ((withRegs [(1, 15)]).reg 1).toNat = (15 : Key).val ∧ ((withRegs [(1, 16)]).reg 1).toNat > 15 := by decide +kernel

/-- A suspended block given nothing, a release, a press, and a close with events after it. -/
def waiting (events : List HostEvent) : State := { base with rs := .awaitingKey 3, inputs := [.poll events] }

theorem witness_LdXK_and_KeyWait :
    (∀ es, (waiting es).rs = .awaitingKey 3) ∧ (∀ es len, (waiting es).boot ≠ .outOfSpace len) ∧
      (waiting []).nextInput = .poll [] ∧ (waiting [.release 2]).nextInput = .poll [.release 2] ∧
      (waiting [.press 0xB]).nextInput = .poll [.press 0xB] ∧ (waiting [.close]).nextInput = .poll [.close] ∧
      (waiting [.close, .press 1]).nextInput = .poll (.close :: [.press 1]) :=
  ⟨fun _ => rfl, fun _ => base_started, rfl, rfl, rfl, rfl, rfl⟩

theorem witness_WaitingStepLeavesLaterEvents :
    (waiting [.release 2, .press 2]).rs = .awaitingKey 3 ∧ (∀ len, (waiting [.release 2, .press 2]).boot ≠ .outOfSpace len) ∧
      HostEvent.release 2 ≠ .close ∧ (waiting [.release 2, .press 2]).nextInput = .poll (.release 2 :: .press 2 :: []) :=
  ⟨rfl, base_started, by decide, rfl⟩

/-- `6005` at the last address an instruction can be fetched from. -/
theorem witness_StepRuns :
    let s : State := { ({ base with pc := 0xFFE } : State).withFetchWord 16 0x6005 with inputs := [.poll [.press 4]] }
    s.nextInput = .poll [.press 4] ∧ closes [.press 4] = false ∧ s.rs = .running ∧ (∀ len, s.boot ≠ .outOfSpace len) ∧
      s.pc.toNat + 1 < 4096 ∧
      decodeBytes [s.readByte s.pc.toNat, s.readByte (s.pc.toNat + 1)] = .ok (.ldXNN 0 5, []) :=
  ⟨rfl, rfl, rfl, base_started, by decide +kernel, by decide +kernel⟩

theorem witness_Fetch_out_of_bounds :
    let s : State := { base with pc := 0xFFF, inputs := [.poll [.press 4]] }
    s.nextInput = .poll [.press 4] ∧ closes [.press 4] = false ∧ s.rs = .running ∧ (∀ len, s.boot ≠ .outOfSpace len) ∧
      s.pc.toNat + 1 ≥ 4096 := ⟨rfl, rfl, rfl, base_started, by decide⟩

theorem witness_Close_at_the_poll :
    let s : State := { base with pc := 0xFFF, inputs := [.poll [.press 1, .close, .press 2]] }
    s.nextInput = .poll [.press 1, .close, .press 2] ∧ closes [.press 1, .close, .press 2] = true ∧ s.rs = .running ∧
      ∀ len, s.boot ≠ .outOfSpace len := ⟨rfl, rfl, rfl, base_started⟩

/-- Runs that ended in Quit, in a fault, and in a failed load, each given a poll. -/
theorem witness_EndedRuns :
    base.nextInput = .poll [] ∧ ({ base with rs := .quit } : State).rs = .quit ∧
      ({ base with rs := .faulted ⟨.stackUnderflow, 0x200, some 0x00EE, none⟩ } : State).rs =
        .faulted ⟨.stackUnderflow, 0x200, some 0x00EE, none⟩ ∧
      ({ base with boot := .outOfSpace 3585 } : State).boot = .outOfSpace 3585 ∧ ∀ len, base.boot ≠ .outOfSpace len :=
  ⟨rfl, rfl, rfl, rfl, base_started⟩

theorem witness_OneDecrementAPeriod : 0 < base.params.timerDivisor ∧ base.tc = 0 ∧ 10 ≤ base.params.timerDivisor := by
  decide

/-- An instruction that leaves the block faulted: RET with an empty stack. -/
theorem witness_FaultsArePrecise :
    ∃ t rec, base.rs = .running ∧ exec .ret base = .next t ∧ t.rs = .faulted rec := ⟨_, _, rfl, rfl, rfl⟩

theorem witness_InstructionsWriteOnlyTheirParts : ∃ t, exec (.addXY 1 2) base = .next t := ⟨_, rfl⟩

theorem witness_RegistersChangeOnlyByTheirWriters :
    ∃ t, exec (.addXY 1 2) base = .next t ∧ writesReg (.addXY 1 2) 3 = false := ⟨_, rfl, rfl⟩

theorem witness_SoundTimerAndCadenceAreNotRead : ∃ t, exec (.ldXDT 1) { base with dt := 3, st := 7, tc := 9 } = .next t :=
  ⟨_, rfl⟩

/-- The base state meets the invariant and takes a step. -/
theorem witness_EveryStepKeepsTheInvariant : base.Inv ∧ ∃ t, step base = .next t where
  left := {
    memWf := rfl
    divisorPos := by decide
    tcLt := by decide
    pcLe := by decide
    stackLe := by decide
    waitPc := fun _ h => nomatch h
    recShaped := fun _ h => nomatch h
    freshMem := fun h => nomatch h
    failedMem := fun _ h => nomatch h }
  right := ⟨_, rfl⟩

/-- A running step that executes DXYN and pulses refresh, and a waiting step given one event. -/
theorem witness_EveryPollStepShutsTheLoadWindow :
    let s : State := base.withFetchWord 16 0xD015
    (s.nextInput = .poll [] ∧ step s = .next (after s (step s)) ∧ s.rs = .running ∧ (after s (step s)).refresh = true) ∧
      (waiting [.press 1]).nextInput = .poll [.press 1] ∧ ([.press 1] : List HostEvent).length ≤ 1 ∧
      ∃ t, step (waiting [.press 1]) = .next t :=
  ⟨⟨rfl, eq_next_after _ (by decide +kernel), rfl, by decide +kernel⟩, rfl, by decide, _, rfl⟩

theorem witness_Reset_command : ({ base with inputs := [.reset] } : State).nextInput = .reset := rfl

theorem witness_Load :
    ({ fresh with inputs := [.load (List.replicate 3584 1)] } : State).nextInput = .load (List.replicate 3584 1) ∧
      fresh.boot = .fresh ∧ (List.replicate 3584 (1 : Byte)).length ≤ 3584 ∧ (List.replicate 3585 (0 : Byte)).length > 3584 ∧
      ({ fresh with inputs := [.load (List.replicate 3585 0)] } : State).nextInput = .load (List.replicate 3585 0) ∧
      ({ base with inputs := [.load [0x60]] } : State).nextInput = .load [0x60] ∧ base.boot ≠ .fresh :=
  ⟨rfl, rfl, by rw [List.length_replicate], by rw [List.length_replicate]; decide, rfl, rfl, by decide⟩

/-- After a failed load a poll can follow. -/
theorem witness_Load_failed :
    ({ base with boot := .outOfSpace 3585 } : State).nextInput = .poll [] := rfl

end Sys2Proof.Tests
end

/-! SUPPORT. What an instruction can do, said once: its result where it can fault, the fields it keeps, where its `PC` goes,
what becomes of the run status, memory and the stack, and that `ST` and `TC` are carried through. -/

namespace Sys2Proof.Machine

/-! ### Instructions that can fault: the fault, or the effect -/

theorem execRet_next {s t : State} :
    execRet s = .next t ↔
      (∃ a u, s.pop = some (a, u) ∧ t = u.setPc (a + 2)) ∨
      s.pop = none ∧ t = s.raise .stackUnderflow (some (encode .ret)) none := by
  unfold execRet
  obtain _ | ⟨a, u⟩ := s.pop <;> simp [eq_comm]

theorem execCallNNN_next {nnn : BitVec 12} {s t : State} :
    execCallNNN nnn s = .next t ↔
      (∃ u, s.push s.pc = some u ∧ t = u.setPc (wordOfAddr nnn)) ∨
      s.push s.pc = none ∧ t = s.raise .stackOverflow (some (encode (.callNNN nnn))) none := by
  unfold execCallNNN
  cases s.push s.pc <;> simp [eq_comm]

theorem execSkpX_next {x : Reg} {s t : State} :
    execSkpX x s = .next t ↔
      (∃ k, s.keyOf x = some k ∧ t = s.skipIf (s.key k)) ∨
      s.keyOf x = none ∧ t = s.raise .keyIndexOutOfRange (some (encode (.skpX x))) (some (s.reg x).toNat) := by
  unfold execSkpX
  cases s.keyOf x <;> simp [eq_comm]

theorem execSknpX_next {x : Reg} {s t : State} :
    execSknpX x s = .next t ↔
      (∃ k, s.keyOf x = some k ∧ t = s.skipIf (!s.key k)) ∨
      s.keyOf x = none ∧ t = s.raise .keyIndexOutOfRange (some (encode (.sknpX x))) (some (s.reg x).toNat) := by
  unfold execSknpX
  cases s.keyOf x <;> simp [eq_comm]

/-- The drawing that DXYN makes on the framebuffer (R99). -/
def State.drawing (s : State) (x y : Reg) (n : BitVec 4) : Drawing :=
  drawRows (s.reg x).toNat (s.reg y).toNat (s.readBytes s.baseAddr n.toNat) { fb := s.fb, collision := false }

theorem execDrwXYN_next {x y : Reg} {n : BitVec 4} {s t : State} :
    execDrwXYN x y n s = .next t ↔
      (s.rangeFault n.toNat = none ∧
        t = ((s.setFrame (s.drawing x y n).fb).setFlag (s.drawing x y n).collision).pulseRefresh.advance) ∨
      ∃ a, s.rangeFault n.toNat = some a ∧ t = s.raise .memoryOutOfBounds (some (encode (.drwXYN x y n))) (some a) := by
  unfold execDrwXYN State.drawing
  cases s.rangeFault n.toNat <;> simp [eq_comm]

theorem execLdBX_next {x : Reg} {s t : State} :
    execLdBX x s = .next t ↔
      (s.rangeFault 3 = none ∧ t = (s.storeBytes s.baseAddr (bcdDigits (s.reg x))).advance) ∨
      ∃ a, s.rangeFault 3 = some a ∧ t = s.raise .memoryOutOfBounds (some (encode (.ldBX x))) (some a) := by
  unfold execLdBX
  cases s.rangeFault 3 <;> simp [eq_comm]

theorem execLdIX_next {x : Reg} {s t : State} :
    execLdIX x s = .next t ↔
      (s.rangeFault (x.val + 1) = none ∧
        t = ((s.storeBytes s.baseAddr (s.regsUpTo x)).setIndex (s.indexPast x)).advance) ∨
      ∃ a, s.rangeFault (x.val + 1) = some a ∧ t = s.raise .memoryOutOfBounds (some (encode (.ldIX x))) (some a) := by
  unfold execLdIX
  cases s.rangeFault (x.val + 1) <;> simp [eq_comm]

theorem execLdXI_next {x : Reg} {s t : State} :
    execLdXI x s = .next t ↔
      (s.rangeFault (x.val + 1) = none ∧ t = ((s.loadRegs x s.baseAddr).setIndex (s.indexPast x)).advance) ∨
      ∃ a, s.rangeFault (x.val + 1) = some a ∧ t = s.raise .memoryOutOfBounds (some (encode (.ldXI x))) (some a) := by
  unfold execLdXI
  cases s.rangeFault (x.val + 1) <;> simp [eq_comm]

/-! ### The fields an instruction keeps -/

/-- The field of the part is equal in both states. On memory this says more than `Same`, which compares byte by byte. -/
def StatePart.Kept (s t : State) : StatePart → Prop
  | .v => t.v = s.v
  | .index => t.index = s.index
  | .pc => t.pc = s.pc
  | .sp => t.sp = s.sp
  | .stack => t.stack = s.stack
  | .dt => t.dt = s.dt
  | .st => t.st = s.st
  | .fb => t.fb = s.fb
  | .keys => t.keys = s.keys
  | .mem => t.mem = s.mem
  | .tc => t.tc = s.tc
  | .rs => t.rs = s.rs
  | .refresh => t.refresh = s.refresh
  | .boot => t.boot = s.boot
  | .params => t.params = s.params
  | .inputs => t.inputs = s.inputs
  | .draws => t.draws = s.draws

/-- Every field outside `changed` is equal in both states. -/
def Keeps (changed : List StatePart) (s t : State) : Prop := ∀ p, p ∉ changed → p.Kept s t

theorem keeps_iff {changed : List StatePart} {s t : State} :
    Keeps changed s t ↔
      (.v ∉ changed → t.v = s.v) ∧ (.index ∉ changed → t.index = s.index) ∧ (.pc ∉ changed → t.pc = s.pc) ∧
      (.sp ∉ changed → t.sp = s.sp) ∧ (.stack ∉ changed → t.stack = s.stack) ∧ (.dt ∉ changed → t.dt = s.dt) ∧
      (.st ∉ changed → t.st = s.st) ∧ (.fb ∉ changed → t.fb = s.fb) ∧ (.keys ∉ changed → t.keys = s.keys) ∧
      (.mem ∉ changed → t.mem = s.mem) ∧ (.tc ∉ changed → t.tc = s.tc) ∧ (.rs ∉ changed → t.rs = s.rs) ∧
      (.refresh ∉ changed → t.refresh = s.refresh) ∧ (.boot ∉ changed → t.boot = s.boot) ∧
      (.params ∉ changed → t.params = s.params) ∧ (.inputs ∉ changed → t.inputs = s.inputs) ∧
      (.draws ∉ changed → t.draws = s.draws) :=
  ⟨fun h => ⟨h .v, h .index, h .pc, h .sp, h .stack, h .dt, h .st, h .fb, h .keys, h .mem, h .tc, h .rs, h .refresh, h .boot,
    h .params, h .inputs, h .draws⟩, by rintro ⟨_, _, _, _, _, _, _, _, _, _, _, _, _, _, _, _, _⟩ ⟨⟩ <;> assumption⟩

/-- On every part, an equal field reads the same; memory also needs the font, which `params` holds. -/
theorem Keeps.unchanged {changed : List StatePart} {s t : State} (h : Keeps changed s t) (hp : t.params = s.params) :
    Unchanged changed s t := by
  intro p hout
  have kept := h p hout
  cases p with
  | v => exact fun r => congrArg (·[r]) kept
  | fb => exact fun px py => congrArg (Frame.cell · px py) kept
  | keys => exact fun k => congrArg (·[k]) kept
  | mem => exact fun a => congrArg₂ (fun (q : Params) m => Memory.read q.font m a) hp kept
  | _ => exact kept

theorem exec_keeps {i : Instr} {s t : State} (h : exec i s = .next t) : Keeps (mayWrite i) s t := by
  cases i with
  | ret =>
    obtain ⟨a, u, hu, rfl⟩ | ⟨-, rfl⟩ := execRet_next.mp h
    · obtain ⟨-, -, rfl⟩ := State.pop_cases hu
      simp [keeps_iff, mayWrite]
    · simp [keeps_iff, mayWrite]
  | callNNN nnn =>
    obtain ⟨u, hu, rfl⟩ | ⟨-, rfl⟩ := execCallNNN_next.mp h
    · obtain ⟨-, rfl⟩ := State.push_cases hu
      simp [keeps_iff, mayWrite]
    · simp [keeps_iff, mayWrite]
  | drwXYN x y n =>
    obtain ⟨-, rfl⟩ | ⟨a, -, rfl⟩ := execDrwXYN_next.mp h <;> simp [keeps_iff, mayWrite]
  | skpX x =>
    obtain ⟨k, -, rfl⟩ | ⟨-, rfl⟩ := execSkpX_next.mp h <;> simp [keeps_iff, mayWrite]
  | sknpX x =>
    obtain ⟨k, -, rfl⟩ | ⟨-, rfl⟩ := execSknpX_next.mp h <;> simp [keeps_iff, mayWrite]
  | ldBX x =>
    obtain ⟨-, rfl⟩ | ⟨a, -, rfl⟩ := execLdBX_next.mp h <;> simp [keeps_iff, mayWrite]
  | ldIX x =>
    obtain ⟨-, rfl⟩ | ⟨a, -, rfl⟩ := execLdIX_next.mp h <;> simp [keeps_iff, mayWrite]
  | ldXI x =>
    obtain ⟨-, rfl⟩ | ⟨a, -, rfl⟩ := execLdXI_next.mp h <;> simp [keeps_iff, mayWrite]
  | _ =>
    obtain rfl := Host.Outcome.next.inj h
    simp [keeps_iff, mayWrite]

theorem exec_tc {i : Instr} {s t : State} (h : exec i s = .next t) : t.tc = s.tc :=
  exec_keeps h .tc (by cases i <;> simp [mayWrite])

theorem exec_boot {i : Instr} {s t : State} (h : exec i s = .next t) : t.boot = s.boot :=
  exec_keeps h .boot (by cases i <;> simp [mayWrite])

theorem exec_params {i : Instr} {s t : State} (h : exec i s = .next t) : t.params = s.params :=
  exec_keeps h .params (by cases i <;> simp [mayWrite])

theorem exec_inputs {i : Instr} {s t : State} (h : exec i s = .next t) : t.inputs = s.inputs :=
  exec_keeps h .inputs (by cases i <;> simp [mayWrite])

/-! ### Where an instruction sends `PC` (R31, R67) -/

/-- Where `PC` can go in one instruction: nowhere (a fault, or FX0A), 2 or 4 onward, to the sum of a byte and an address, or
behind the call that a stack entry records. -/
inductive NextPc (s : State) : Word → Prop
  | stay : NextPc s s.pc
  | next : NextPc s (s.pc + 2)
  | skip : NextPc s (s.pc + 4)
  | jump (b : Byte) (nnn : BitVec 12) : NextPc s (wordOfByte b + wordOfAddr nnn)
  | back (j : Fin 16) : NextPc s (s.stack[j] + 2)

theorem nextPc_skipIf (s : State) (c : Bool) : NextPc s (s.skipIf c).pc := by
  cases c
  · exact .next
  · exact .skip

theorem nextPc_wordOfAddr (s : State) (nnn : BitVec 12) : NextPc s (wordOfAddr nnn) := by
  simpa [wordOfByte] using NextPc.jump (s := s) 0 nnn

theorem exec_nextPc {i : Instr} {s t : State} (h : exec i s = .next t) : NextPc s t.pc := by
  cases i with
  | ret =>
    obtain ⟨a, u, hu, rfl⟩ | ⟨-, rfl⟩ := execRet_next.mp h
    · obtain ⟨-, rfl, rfl⟩ := State.pop_cases hu
      exact .back ⟨s.sp.val - 1, s.sp_pred_lt⟩
    · exact .stay
  | callNNN nnn =>
    obtain ⟨u, -, rfl⟩ | ⟨-, rfl⟩ := execCallNNN_next.mp h
    · exact nextPc_wordOfAddr s nnn
    · exact .stay
  | jpNNN nnn =>
    obtain rfl := Host.Outcome.next.inj h
    exact nextPc_wordOfAddr s nnn
  | jpV0NNN nnn =>
    obtain rfl := Host.Outcome.next.inj h
    exact .jump _ nnn
  | seXNN | sneXNN | seXY | sneXY =>
    obtain rfl := Host.Outcome.next.inj h
    exact nextPc_skipIf s _
  | drwXYN x y n =>
    obtain ⟨-, rfl⟩ | ⟨a, -, rfl⟩ := execDrwXYN_next.mp h
    · exact .next
    · exact .stay
  | skpX x =>
    obtain ⟨k, -, rfl⟩ | ⟨-, rfl⟩ := execSkpX_next.mp h
    · exact nextPc_skipIf s _
    · exact .stay
  | sknpX x =>
    obtain ⟨k, -, rfl⟩ | ⟨-, rfl⟩ := execSknpX_next.mp h
    · exact nextPc_skipIf s _
    · exact .stay
  | ldBX x =>
    obtain ⟨-, rfl⟩ | ⟨a, -, rfl⟩ := execLdBX_next.mp h
    · simpa using NextPc.next (s := s)
    · exact .stay
  | ldIX x =>
    obtain ⟨-, rfl⟩ | ⟨a, -, rfl⟩ := execLdIX_next.mp h
    · simpa using NextPc.next (s := s)
    · exact .stay
  | ldXI x =>
    obtain ⟨-, rfl⟩ | ⟨a, -, rfl⟩ := execLdXI_next.mp h
    · exact .next
    · exact .stay
  | ldXK x =>
    obtain rfl := Host.Outcome.next.inj h
    exact .stay
  | _ =>
    obtain rfl := Host.Outcome.next.inj h
    exact .next

/-- A fetch address and a small offset stay below the bound of R32, and nothing wraps. -/
theorem toNat_add_le_of_fetchAddr {a k : Word} (ha : a.toNat ≤ 0xFFE) (hk : k.toNat ≤ 4) : (a + k).toNat ≤ 0x10FE := by
  rw [BitVec.toNat_add]
  omega

/-- From a fetch address, with every stack entry one, no instruction sends `PC` above the bound of R32. -/
theorem NextPc.toNat_le {s : State} {a : Word} (h : NextPc s a) (hp : s.pc.toNat ≤ 0xFFE)
    (hs : ∀ j : Fin 16, s.stack[j].toNat ≤ 0xFFE) : a.toNat ≤ 0x10FE := by
  cases h with
  | stay => omega
  | next => exact toNat_add_le_of_fetchAddr hp (by decide)
  | skip => exact toNat_add_le_of_fetchAddr hp (by decide)
  | jump b nnn =>
    have := b.isLt
    have := nnn.isLt
    simp only [wordOfByte, wordOfAddr, BitVec.toNat_add, BitVec.toNat_setWidth, Config.pcWidth, Config.iWidth]
    omega
  | back j => exact toNat_add_le_of_fetchAddr (hs j) (by decide)

/-! ### The run status after an instruction (R104, R115, R116) -/

theorem shaped_of_rangeFault {s : State} {len a : Nat} (h : s.rangeFault len = some a) (pc w : Word) :
    FaultRecord.Shaped ⟨.memoryOutOfBounds, pc, some w, some a⟩ := by
  obtain ⟨-, -, rfl⟩ := State.rangeFault_some h
  exact ⟨⟨w, rfl⟩, _, rfl, Nat.le_max_right _ _⟩

theorem shaped_of_keyOf {s : State} {x : Reg} (h : s.keyOf x = none) (pc w : Word) :
    FaultRecord.Shaped ⟨.keyIndexOutOfRange, pc, some w, some (s.reg x).toNat⟩ := by
  refine ⟨⟨w, rfl⟩, _, rfl, Nat.lt_of_not_le fun hle => ?_⟩
  rw [s.keyOf_of_lt x (Nat.lt_succ_of_le hle)] at h
  cases h

/-- An instruction leaves the run status alone, or suspends at its own address, or raises a fault in the form of R115. -/
theorem exec_rs_cases {i : Instr} {s t : State} (h : exec i s = .next t) :
    t.rs = s.rs ∨ (∃ x, t.rs = .awaitingKey x ∧ t.pc = s.pc) ∨
      ∃ kind opcode info, t = s.raise kind opcode info ∧ FaultRecord.Shaped ⟨kind, s.pc, opcode, info⟩ := by
  cases i with
  | ret =>
    obtain ⟨a, u, hu, rfl⟩ | ⟨-, rfl⟩ := execRet_next.mp h
    · obtain ⟨-, -, rfl⟩ := State.pop_cases hu
      exact .inl rfl
    · exact .inr (.inr ⟨_, _, _, rfl, rfl, rfl⟩)
  | callNNN nnn =>
    obtain ⟨u, hu, rfl⟩ | ⟨-, rfl⟩ := execCallNNN_next.mp h
    · obtain ⟨-, rfl⟩ := State.push_cases hu
      exact .inl rfl
    · exact .inr (.inr ⟨_, _, _, rfl, ⟨nnn, rfl⟩, rfl⟩)
  | drwXYN x y n =>
    obtain ⟨-, rfl⟩ | ⟨a, ha, rfl⟩ := execDrwXYN_next.mp h
    · exact .inl rfl
    · exact .inr (.inr ⟨_, _, _, rfl, shaped_of_rangeFault ha _ _⟩)
  | skpX x =>
    obtain ⟨k, -, rfl⟩ | ⟨hk, rfl⟩ := execSkpX_next.mp h
    · exact .inl rfl
    · exact .inr (.inr ⟨_, _, _, rfl, shaped_of_keyOf hk _ _⟩)
  | sknpX x =>
    obtain ⟨k, -, rfl⟩ | ⟨hk, rfl⟩ := execSknpX_next.mp h
    · exact .inl rfl
    · exact .inr (.inr ⟨_, _, _, rfl, shaped_of_keyOf hk _ _⟩)
  | ldXK x =>
    obtain rfl := Host.Outcome.next.inj h
    exact .inr (.inl ⟨x, rfl, rfl⟩)
  | ldBX x =>
    obtain ⟨-, rfl⟩ | ⟨a, ha, rfl⟩ := execLdBX_next.mp h
    · exact .inl (State.storeBytes_rs ..)
    · exact .inr (.inr ⟨_, _, _, rfl, shaped_of_rangeFault ha _ _⟩)
  | ldIX x =>
    obtain ⟨-, rfl⟩ | ⟨a, ha, rfl⟩ := execLdIX_next.mp h
    · exact .inl (State.storeBytes_rs ..)
    · exact .inr (.inr ⟨_, _, _, rfl, shaped_of_rangeFault ha _ _⟩)
  | ldXI x =>
    obtain ⟨-, rfl⟩ | ⟨a, ha, rfl⟩ := execLdXI_next.mp h
    · exact .inl rfl
    · exact .inr (.inr ⟨_, _, _, rfl, shaped_of_rangeFault ha _ _⟩)
  | _ => exact .inl (exec_keeps h .rs (by simp [mayWrite]))

/-! ### Memory and the stack entries after an instruction -/

/-- Every instruction keeps the canonical form: only FX33 and FX55 write memory, inside the checked range. -/
theorem exec_memWf {i : Instr} {s t : State} (h : exec i s = .next t) (hm : Memory.wf s.params.font s.mem = true) :
    Memory.wf t.params.font t.mem = true := by
  have kept (hi : .mem ∉ mayWrite i) : Memory.wf t.params.font t.mem = true := by
    rw [exec_params h, show t.mem = s.mem from exec_keeps h .mem hi]
    exact hm
  cases i with
  | ldBX x =>
    obtain ⟨hr, rfl⟩ | ⟨a, -, rfl⟩ := execLdBX_next.mp h
    · have inside := State.rangeFault_none hr
      simpa using s.storeBytes_wf _ _ (by rw [bcdDigits_length]; omega) hm
    · exact hm
  | ldIX x =>
    obtain ⟨hr, rfl⟩ | ⟨a, -, rfl⟩ := execLdIX_next.mp h
    · have inside := State.rangeFault_none hr
      simpa using s.storeBytes_wf _ _ (by rw [State.regsUpTo_length]; omega) hm
    · exact hm
  | _ => exact kept (by simp [mayWrite])

/-- Every instruction keeps the bound of the stack entries: only CALL writes one, and it writes its own address. -/
theorem exec_stackLe {i : Instr} {s t : State} (h : exec i s = .next t) (hp : s.pc.toNat ≤ 0xFFE)
    (hs : ∀ j : Fin 16, s.stack[j].toNat ≤ 0xFFE) (j : Fin 16) : t.stack[j].toNat ≤ 0xFFE := by
  have kept (hi : .stack ∉ mayWrite i) : t.stack[j].toNat ≤ 0xFFE := by
    rw [show t.stack = s.stack from exec_keeps h .stack hi]
    exact hs j
  cases i with
  | callNNN nnn =>
    obtain ⟨u, hu, rfl⟩ | ⟨-, rfl⟩ := execCallNNN_next.mp h
    · obtain ⟨lt, rfl⟩ := State.push_cases hu
      simp only [State.setPc_stack, Fin.getElem_fin, Vector.getElem_set]
      split_ifs
      · exact hp
      · exact hs j
    · exact hs j
  | _ => exact kept (by simp [mayWrite])

/-! ### The sound timer and the cadence counter (R20, R25) -/

/-- The state with other values of `ST` and `TC`. -/
def State.retime (s : State) (b : Byte) (n : Nat) : State := { s with st := b, tc := n }

theorem retime_unchanged (s : State) (b : Byte) (n : Nat) : Unchanged [.st, .tc] s (s.retime b n) :=
  Keeps.unchanged (keeps_iff.mpr (by simp [State.retime])) rfl

theorem State.storeBytes_retime (s : State) (a : Nat) (bs : List Byte) (b : Byte) (n : Nat) :
    (s.retime b n).storeBytes a bs = (s.storeBytes a bs).retime b n := by
  induction bs generalizing s a with
  | nil => rfl
  | cons c rest ih => exact ih (s.writeByte a c) (a + 1)

theorem State.pop_retime (s : State) (b : Byte) (n : Nat) :
    (s.retime b n).pop = s.pop.map fun p => (p.1, p.2.retime b n) := by
  by_cases h : 0 < s.sp.val
  · rw [s.pop_of_pos h, (s.retime b n).pop_of_pos h]
    rfl
  · rw [s.pop_empty (by omega), (s.retime b n).pop_empty (Nat.eq_zero_of_not_pos h)]
    rfl

theorem State.push_retime (s : State) (a : Word) (b : Byte) (n : Nat) :
    (s.retime b n).push a = (s.push a).map (·.retime b n) := by
  unfold State.push
  by_cases h : s.sp.val < 16 <;> simp [h, State.retime]

/-- The effect and the fault of an instruction are the same whatever `ST` and `TC` are, which are carried through; FX18 alone
gives `ST` a value of its own. -/
theorem exec_retime {i : Instr} {s t : State} (h : exec i s = .next t) (b : Byte) (n : Nat) :
    ∃ c, exec i (s.retime b n) = .next (t.retime c n) := by
  cases i with
  | ret =>
    refine ⟨b, execRet_next.mpr ?_⟩
    obtain ⟨a, u, hu, rfl⟩ | ⟨hu, rfl⟩ := execRet_next.mp h
    · exact .inl ⟨a, u.retime b n, by rw [State.pop_retime, hu]; rfl, rfl⟩
    · exact .inr ⟨by rw [State.pop_retime, hu]; rfl, rfl⟩
  | callNNN nnn =>
    refine ⟨b, execCallNNN_next.mpr ?_⟩
    obtain ⟨u, hu, rfl⟩ | ⟨hu, rfl⟩ := execCallNNN_next.mp h
    · exact .inl ⟨u.retime b n, (s.push_retime s.pc b n).trans (congrArg _ hu), rfl⟩
    · exact .inr ⟨(s.push_retime s.pc b n).trans (congrArg _ hu), rfl⟩
  | drwXYN x y n' =>
    refine ⟨b, execDrwXYN_next.mpr ?_⟩
    obtain ⟨hr, rfl⟩ | ⟨a, hr, rfl⟩ := execDrwXYN_next.mp h
    · exact .inl ⟨hr, rfl⟩
    · exact .inr ⟨a, hr, rfl⟩
  | skpX x =>
    refine ⟨b, execSkpX_next.mpr ?_⟩
    obtain ⟨k, hk, rfl⟩ | ⟨hk, rfl⟩ := execSkpX_next.mp h
    · exact .inl ⟨k, hk, rfl⟩
    · exact .inr ⟨hk, rfl⟩
  | sknpX x =>
    refine ⟨b, execSknpX_next.mpr ?_⟩
    obtain ⟨k, hk, rfl⟩ | ⟨hk, rfl⟩ := execSknpX_next.mp h
    · exact .inl ⟨k, hk, rfl⟩
    · exact .inr ⟨hk, rfl⟩
  | ldBX x =>
    refine ⟨b, execLdBX_next.mpr ?_⟩
    obtain ⟨hr, rfl⟩ | ⟨a, hr, rfl⟩ := execLdBX_next.mp h
    · exact .inl ⟨hr, by rw [State.storeBytes_retime]; rfl⟩
    · exact .inr ⟨a, hr, rfl⟩
  | ldIX x =>
    refine ⟨b, execLdIX_next.mpr ?_⟩
    obtain ⟨hr, rfl⟩ | ⟨a, hr, rfl⟩ := execLdIX_next.mp h
    · exact .inl ⟨hr, by rw [State.storeBytes_retime]; rfl⟩
    · exact .inr ⟨a, hr, rfl⟩
  | ldXI x =>
    refine ⟨b, execLdXI_next.mpr ?_⟩
    obtain ⟨hr, rfl⟩ | ⟨a, hr, rfl⟩ := execLdXI_next.mp h
    · exact .inl ⟨hr, rfl⟩
    · exact .inr ⟨a, hr, rfl⟩
  | ldSTX x =>
    obtain rfl := Host.Outcome.next.inj h
    exact ⟨s.reg x, rfl⟩
  | _ =>
    obtain rfl := Host.Outcome.next.inj h
    exact ⟨b, rfl⟩

end Sys2Proof.Machine

/-! SUPPORT. Which words decode to nothing, what a step of the loop can do, and what it leaves unchanged. -/

namespace Sys2Proof.Machine

/-! ### Illegal words (R61) -/

theorem decode0_eq_none {w : Word} (hg : w.toNat / 0x1000 = 0x0) :
    decode0 w = none ↔ w.toNat ≠ 0x00E0 ∧ w.toNat ≠ 0x00EE := by
  have hn : w.toNat % 0x1000 = w.toNat := by omega
  simp only [decode0, ← BitVec.toNat_inj, fieldNNN_toNat, hn, Sel.cls, Sel.ret]
  split_ifs <;> simp_all

theorem decode8_eq_none (w : Word) :
    decode8 w = none ↔ [0x8, 0x9, 0xA, 0xB, 0xC, 0xD, 0xF].contains (w.toNat % 0x10) = true := by
  have hlt : w.toNat % 0x10 < 16 := Nat.mod_lt _ (by decide)
  unfold decode8
  rw [fieldN_toNat]
  generalize w.toNat % 0x10 = n at hlt ⊢
  interval_cases n <;> simp

theorem decodeE_eq_none (w : Word) :
    decodeE w = none ↔ (!([0x9E, 0xA1].contains (w.toNat % 0x100))) = true := by
  unfold decodeE
  simp only [← BitVec.toNat_inj, fieldNN_toNat, Sel.skpX, Sel.sknpX]
  split_ifs <;> simp_all

theorem decodeF_eq_none (w : Word) :
    decodeF w = none ↔
      (!([0x07, 0x0A, 0x15, 0x18, 0x1E, 0x29, 0x33, 0x55, 0x65].contains (w.toNat % 0x100))) = true := by
  unfold decodeF
  simp only [← BitVec.toNat_inj, fieldNN_toNat, Sel.ldXDT, Sel.ldXK, Sel.ldDTX, Sel.ldSTX, Sel.addIX, Sel.ldFX, Sel.ldBX,
    Sel.ldIX, Sel.ldXI]
  split_ifs <;> simp_all

/-- The dispatcher answers no instruction exactly on the illegal words. -/
theorem decodeGroup_eq_none (w : Word) : decodeGroup w = none ↔ illegalWord w.toNat = true := by
  have hlt : w.toNat / 0x1000 < 16 := by have := w.isLt; omega
  have h0 := @decode0_eq_none w
  unfold decodeGroup illegalWord
  rw [fieldG_toNat]
  generalize w.toNat / 0x1000 = g at hlt h0 ⊢
  match g, hlt, h0 with
  | 0, _, h0 => simpa using h0 rfl
  | 8, _, _ => exact decode8_eq_none w
  | 14, _, _ => exact decodeE_eq_none w
  | 15, _, _ => exact decodeF_eq_none w
  | 1, _, _ | 2, _, _ | 3, _, _ | 4, _, _ | 5, _, _ | 6, _, _ | 7, _, _ | 9, _, _ | 10, _, _ | 11, _, _ | 12, _, _ | 13, _, _ =>
    simp
  | g + 16, hlt, _ => omega

theorem illegalWord_of_decodeWord {w : Word} {e : DecodeError} (h : decodeWord w = .error e) : illegalWord w.toNat = true := by
  refine (decodeGroup_eq_none w).mp ?_
  unfold decodeWord at h
  cases hd : decodeGroup w with
  | none => rfl
  | some i => simp [hd] at h

/-! ### A step of the loop -/

theorem settleResult_eq_next {r : Result} {t : State} (h : settleResult r = .next t) : ∃ u, r = .next u ∧ t = u.settle := by
  cases r with
  | next u => exact ⟨u, rfl, (Host.Outcome.next.inj h).symm⟩
  | fault f => cases h
  | refused r => cases h

/-- A fetch that answers a next state raised one of its two faults, or executed the decoded instruction and settled it. -/
theorem fetchCycle_next {s t : State} (h : fetchCycle s = .next t) :
    (t = s.raise .programCounterOutOfBounds none (some s.pc.toNat) ∧ 0xFFE < s.pc.toNat) ∨
      (t = s.raise .invalidOpcode (some s.fetchWord) none ∧ illegalWord s.fetchWord.toNat = true) ∨
      ∃ i u, decodeWord s.fetchWord = .ok i ∧ s.pc.toNat ≤ 0xFFE ∧ exec i s = .next u ∧ t = u.settle := by
  obtain ⟨hf, hp⟩ | ⟨hf, -, e, he⟩ | ⟨i, hf, hp, hd⟩ := fetchCycle_cases s <;> rw [hf] at h
  · exact .inl ⟨(Host.Outcome.next.inj h).symm, hp⟩
  · exact .inr (.inl ⟨(Host.Outcome.next.inj h).symm, illegalWord_of_decodeWord he⟩)
  · obtain ⟨u, hu, rfl⟩ := settleResult_eq_next h
    exact .inr (.inr ⟨i, u, hd, hp, hu, rfl⟩)

/-- A poll step that answers a next state was running, and quit or fetched, or was waiting for a key. -/
theorem step_poll_next {s t : State} {es : List HostEvent} (hin : s.nextInput = .poll es) (h : step s = .next t) :
    (s.rs = .running ∧ (t = { s.polled es with rs := .quit } ∨ fetchCycle (s.polled es) = .next t)) ∨
      ∃ x, s.rs = .awaitingKey x ∧ t = waitingCycle x es s.beginCycle := by
  rw [step_poll hin] at h
  by_cases hb : ∃ len, s.boot = .outOfSpace len
  · obtain ⟨len, hb⟩ := hb
    simp [loopCycle, hb] at h
  · have started : ∀ len, s.boot ≠ .outOfSpace len := fun len hl => hb ⟨len, hl⟩
    cases hr : s.rs with
    | running =>
      rw [loopCycle_running es started hr] at h
      split_ifs at h
      · exact .inl ⟨rfl, .inl (Host.Outcome.next.inj h).symm⟩
      · exact .inl ⟨rfl, .inr h⟩
    | awaitingKey x =>
      rw [loopCycle_waiting es started hr] at h
      exact .inr ⟨x, rfl, (Host.Outcome.next.inj h).symm⟩
    | quit =>
      rw [loopCycle_started es started, hr] at h
      cases h
    | faulted rec =>
      rw [loopCycle_started es started, hr] at h
      cases h

@[simp] theorem State.settle_boot (s : State) : s.settle.boot = s.boot := by unfold State.settle; split <;> rfl
@[simp] theorem State.settle_inputs (s : State) : s.settle.inputs = s.inputs := by unfold State.settle; split <;> rfl
@[simp] theorem State.settle_params (s : State) : s.settle.params = s.params := by unfold State.settle; split <;> rfl
@[simp] theorem State.settle_refresh (s : State) : s.settle.refresh = s.refresh := by unfold State.settle; split <;> rfl

/-- A fetch changes neither the load window, nor the coming inputs, nor the build parameters. -/
theorem fetchCycle_frame {s t : State} (h : fetchCycle s = .next t) :
    t.boot = s.boot ∧ t.inputs = s.inputs ∧ t.params = s.params := by
  obtain ⟨rfl, -⟩ | ⟨rfl, -⟩ | ⟨i, u, -, -, hu, rfl⟩ := fetchCycle_next h
  · exact ⟨rfl, rfl, rfl⟩
  · exact ⟨rfl, rfl, rfl⟩
  · simp [exec_boot hu, exec_inputs hu, exec_params hu]

/-- Only DXYN may pulse `refresh`. -/
theorem eq_drwXYN_of_refresh_mem {i : Instr} (h : .refresh ∈ mayWrite i) : ∃ x y n, i = .drwXYN x y n := by
  cases i with
  | drwXYN x y n => exact ⟨x, y, n, rfl⟩
  | _ => simp [mayWrite] at h

/-- A fetch that raises `refresh` executed DXYN. -/
theorem fetchCycle_refresh {s t : State} (h : fetchCycle s = .next t) (low : s.refresh = false) (high : t.refresh = true) :
    ∃ x y n, decodeWord s.fetchWord = .ok (.drwXYN x y n) := by
  obtain ⟨rfl, -⟩ | ⟨rfl, -⟩ | ⟨i, u, hd, -, hu, rfl⟩ := fetchCycle_next h
  · simp [low] at high
  · simp [low] at high
  · have written : .refresh ∈ mayWrite i := by
      by_contra hout
      have kept : u.refresh = s.refresh := exec_keeps hu .refresh hout
      simp [kept, low] at high
    obtain ⟨x, y, n, rfl⟩ := eq_drwXYN_of_refresh_mem written
    exact ⟨x, y, n, hd⟩

/-! ### The key wait -/

/-- A waiting step changes neither the load window, nor `refresh`, nor the build parameters. -/
theorem waitingCycle_frame (x : Reg) (es : List HostEvent) (s : State) :
    (waitingCycle x es s).boot = s.boot ∧ (waitingCycle x es s).refresh = s.refresh ∧
      (waitingCycle x es s).params = s.params := by
  have left (rest : List HostEvent) : (s.leaveEvents rest).boot = s.boot ∧ (s.leaveEvents rest).refresh = s.refresh ∧
      (s.leaveEvents rest).params = s.params := by
    rw [State.leaveEvents_eq]
    exact ⟨rfl, rfl, rfl⟩
  match es with
  | [] => exact ⟨rfl, rfl, rfl⟩
  | .release k :: rest => exact left rest
  | .press k :: rest => exact left rest
  | .close :: _ => exact ⟨rfl, rfl, rfl⟩

/-- A waiting step with at most one event leaves none for the next step. -/
theorem waitingCycle_inputs {x : Reg} {es : List HostEvent} {s : State} (h : es.length ≤ 1) :
    (waitingCycle x es s).inputs = s.inputs := by
  match es with
  | [] | [.release _] | [.press _] | .close :: _ => rfl

end Sys2Proof.Machine

/-! SUPPORT. The reset state, and that every operation of a step keeps the invariant of every run. -/

namespace Sys2Proof.Machine

/-! ### Reset and load -/

theorem resetBlock_readByte (s : State) (a : Nat) :
    s.resetBlock.readByte a = if h : a < 80 then s.params.font[a] else 0 := rfl

theorem resetBlock_reg (s : State) (r : Reg) : s.resetBlock.reg r = 0 :=
  Vector.getElem_replicate r.isLt

theorem resetBlock_stack (s : State) (j : Fin 16) : s.resetBlock.stack[j] = 0 :=
  Vector.getElem_replicate j.isLt

theorem resetBlock_pixel (s : State) (px : Fin 64) (py : Fin 32) : s.resetBlock.pixel px py = false :=
  Frame.clear_cell px py

theorem resetBlock_key (s : State) (k : Key) : s.resetBlock.key k = false :=
  Vector.getElem_replicate k.isLt

theorem State.loadProgram_params (s : State) (image : List Byte) : (s.loadProgram image).params = s.params := by
  unfold State.loadProgram
  split_ifs
  · exact State.storeBytes_params ..
  · rfl

/-! ### The operations of a step keep the invariant -/

theorem State.Inv.complete {s : State} (h : s.Inv) : s.complete.Inv :=
  { h with tcLt := Nat.mod_lt _ h.divisorPos }

theorem State.Inv.settle {s : State} (h : s.Inv) : s.settle.Inv := by
  unfold State.settle
  split_ifs
  · exact h.complete
  · exact h

theorem State.Inv.raise {s : State} (h : s.Inv) {kind : FaultKind} {opcode : Option Word} {info : Option Nat}
    (shaped : FaultRecord.Shaped ⟨kind, s.pc, opcode, info⟩) : (s.raise kind opcode info).Inv :=
  { h with
    waitPc := nofun
    recShaped := by
      rintro _ ⟨⟩
      exact ⟨rfl, shaped⟩ }

theorem State.Inv.quit {s : State} (h : s.Inv) : State.Inv { s with rs := .quit } :=
  { h with waitPc := nofun, recShaped := nofun }

theorem State.Inv.beginCycle {s : State} (h : s.Inv) : s.beginCycle.Inv :=
  { h with freshMem := nofun, failedMem := nofun }

theorem State.Inv.polled {s : State} (h : s.Inv) (es : List HostEvent) : (s.polled es).Inv :=
  { h with freshMem := nofun, failedMem := nofun }

theorem State.Inv.leaveEvents {s : State} (h : s.Inv) (rest : List HostEvent) : (s.leaveEvents rest).Inv := by
  cases rest with
  | nil => exact h
  | cons => exact { h with }

/-- The reset state of any block with a positive divisor. -/
theorem resetBlock_inv {s : State} (h : 0 < s.params.timerDivisor) : s.resetBlock.Inv where
  memWf := rfl
  divisorPos := h
  tcLt := h
  pcLe := (by decide : State.reset.pc.toNat ≤ 0x10FE)
  stackLe := (by decide : ∀ j : Fin 16, State.reset.stack[j].toNat ≤ 0xFFE)
  waitPc := nofun
  recShaped := nofun
  freshMem := fun _ => rfl
  failedMem := nofun

/-- A load into reset memory: an image that fits is stored below 4096, and a longer one is only recorded. -/
theorem State.Inv.loadProgram {s : State} (h : s.Inv) (hb : s.boot = .fresh) (image : List Byte) :
    (s.loadProgram image).Inv := by
  by_cases fits : image.length ≤ Config.maxProgram
  · rw [State.loadProgram_fits s fits]
    have inside : Config.progBase + image.length ≤ Config.memSize := by
      simp only [Config.progBase, Config.memSize, Config.maxProgram] at fits ⊢
      omega
    exact { h with memWf := s.storeBytes_wf _ _ inside h.memWf, freshMem := nofun, failedMem := nofun }
  · rw [State.loadProgram_tooLong s (Nat.lt_of_not_le fits)]
    exact { h with
      freshMem := nofun
      failedMem := by
        rintro _ ⟨⟩
        exact ⟨Nat.lt_of_not_le fits, h.freshMem hb⟩ }

/-- An instruction executed at a fetch address, with the load window shut, keeps the invariant. -/
theorem State.Inv.exec {s t : State} (h : s.Inv) {i : Instr} (hx : exec i s = .next t) (hr : s.rs = .running)
    (hb : s.boot = .loaded) (hp : s.pc.toNat ≤ 0xFFE) : t.Inv where
  memWf := exec_memWf hx h.memWf
  divisorPos := by rw [exec_params hx]; exact h.divisorPos
  tcLt := by rw [exec_params hx, exec_tc hx]; exact h.tcLt
  pcLe := (exec_nextPc hx).toNat_le hp h.stackLe
  stackLe := exec_stackLe hx hp h.stackLe
  waitPc x hw := by
    obtain hrs | ⟨_, -, hpc⟩ | ⟨kind, opcode, info, rfl, -⟩ := exec_rs_cases hx
    · simp [hrs, hr] at hw
    · exact hpc ▸ hp
    · cases hw
  recShaped rec hf := by
    obtain hrs | ⟨_, hrs, -⟩ | ⟨kind, opcode, info, rfl, shaped⟩ := exec_rs_cases hx
    · simp [hrs, hr] at hf
    · simp [hrs] at hf
    · obtain rfl := RunStatus.faulted.inj hf
      exact ⟨rfl, shaped⟩
  freshMem hf := by simp [exec_boot hx, hb] at hf
  failedMem len hf := by simp [exec_boot hx, hb] at hf

theorem State.Inv.fetchCycle {s t : State} (h : s.Inv) (hf : fetchCycle s = .next t) (hr : s.rs = .running)
    (hb : s.boot = .loaded) : t.Inv := by
  obtain ⟨rfl, hp⟩ | ⟨rfl, illegal⟩ | ⟨i, u, -, hp, hu, rfl⟩ := fetchCycle_next hf
  · exact h.raise ⟨hp, rfl, rfl⟩
  · exact h.raise ⟨⟨_, rfl, illegal⟩, rfl⟩
  · exact (h.exec hu hr hb hp).settle

/-- The completion of FX0A moves `PC` 2 onward from a fetch address. -/
theorem State.Inv.completeKey {s : State} (h : s.Inv) (hp : s.pc.toNat ≤ 0xFFE) (x : Reg) (k : Key) :
    (s.completeKey x k).Inv := by
  have resumed : State.Inv { ((s.setKey k true).setReg x (byteOfKey k)).advance with rs := .running } :=
    { h with pcLe := NextPc.next.toNat_le hp h.stackLe, waitPc := nofun, recShaped := nofun }
  exact resumed.complete

theorem State.Inv.waitingCycle {s : State} (h : s.Inv) (hp : s.pc.toNat ≤ 0xFFE) (x : Reg) (es : List HostEvent) :
    (waitingCycle x es s).Inv := by
  have samePc (rest : List HostEvent) : (s.leaveEvents rest).pc = s.pc := by rw [State.leaveEvents_eq]
  match es with
  | [] => exact h
  | .release k :: rest => exact { h.leaveEvents rest with }
  | .press k :: rest => exact (h.leaveEvents rest).completeKey (samePc rest ▸ hp) x k
  | .close :: _ => exact h.quit

end Sys2Proof.Machine

/-! PROOFS. The statements about the state: what an instruction may write, the invariant, and reset. -/

namespace Sys2Proof.Machine

/-- Settles O52: by the host's input, and within a poll by the run status; each operation of a step keeps the invariant. -/
theorem everyStepKeepsTheInvariant : Obligations.EveryStepKeepsTheInvariant := by
  unfold Obligations.EveryStepKeepsTheInvariant
  intro s t h hstep
  cases hin : s.nextInput with
  | reset =>
    rw [step_reset hin] at hstep
    obtain rfl := Host.Outcome.next.inj hstep
    exact ⟨resetBlock_inv h.divisorPos, rfl⟩
  | load image =>
    rw [step_load hin] at hstep
    split_ifs at hstep with hb
    obtain rfl := Host.Outcome.next.inj hstep
    have taken : s.takeInput.Inv := { h with }
    exact ⟨taken.loadProgram hb image, s.takeInput.loadProgram_params image⟩
  | poll es =>
    obtain ⟨hr, rfl | hf⟩ | ⟨x, hr, rfl⟩ := step_poll_next hin hstep
    · exact ⟨(h.polled es).quit, rfl⟩
    · obtain ⟨-, -, params⟩ := fetchCycle_frame hf
      exact ⟨(h.polled es).fetchCycle hf hr rfl, params⟩
    · obtain ⟨-, -, params⟩ := waitingCycle_frame x es s.beginCycle
      exact ⟨h.beginCycle.waitingCycle (h.waitPc x hr) x es, params⟩

/-- Settles O49: by the fields that each instruction keeps (`exec_keeps`). -/
theorem instructionsWriteOnlyTheirParts : Obligations.InstructionsWriteOnlyTheirParts :=
  fun _ _ _ h => (exec_keeps h).unchanged (exec_params h)

/-- Settles O50: a reader of registers only by its frame, a writer by the register lemmas of its operations. -/
theorem registersChangeOnlyByTheirWriters : Obligations.RegistersChangeOnlyByTheirWriters := by
  unfold Obligations.RegistersChangeOnlyByTheirWriters
  intro i s t r h hw
  cases i with
  | ldXNN | addXNN | ldXY | orXY | andXY | xorXY | rndXNN | ldXDT | addXY | subXY | shrXY | subnXY | shlXY =>
    obtain rfl := Host.Outcome.next.inj h
    simp_all [writesReg]
  | drwXYN x y n =>
    obtain ⟨-, rfl⟩ | ⟨a, -, rfl⟩ := execDrwXYN_next.mp h <;> simp_all [writesReg]
  | ldXI x =>
    obtain ⟨-, rfl⟩ | ⟨a, -, rfl⟩ := execLdXI_next.mp h <;> simp_all [writesReg]
  | _ => exact instructionsWriteOnlyTheirParts _ s t h .v (by simp [mayWrite]) r

/-- Settles O51: `ST` and `TC` are carried through every instruction (`exec_retime`). -/
theorem soundTimerAndCadenceAreNotRead : Obligations.SoundTimerAndCadenceAreNotRead := by
  unfold Obligations.SoundTimerAndCadenceAreNotRead
  intro i s t b n h
  obtain ⟨c, hc⟩ := exec_retime h b n
  exact ⟨t.retime c n, hc, retime_unchanged t c n⟩

/-- Settles O58: by what a poll step can do (`step_poll_next`); only DXYN may write `refresh`. -/
theorem everyPollStepShutsTheLoadWindow : Obligations.EveryPollStepShutsTheLoadWindow := by
  unfold Obligations.EveryPollStepShutsTheLoadWindow
  intro s t es hin hstep
  obtain ⟨hr, rfl | hf⟩ | ⟨x, hr, rfl⟩ := step_poll_next hin hstep
  · exact ⟨rfl, fun _ => rfl, nofun⟩
  · obtain ⟨shut, taken, -⟩ := fetchCycle_frame hf
    exact ⟨shut, fun _ => taken, fun high => ⟨hr, (fetchCycle_refresh hf rfl high :)⟩⟩
  · obtain ⟨shut, low, -⟩ := waitingCycle_frame x es s.beginCycle
    refine ⟨shut, fun hone => ?_, fun high => ?_⟩
    · rw [hr] at hone
      exact waitingCycle_inputs (hone.resolve_left nofun)
    · rw [low] at high
      cases high

/-- Settles O53: the reset state is what a reset of itself gives. -/
theorem resetMeetsTheInvariant : Obligations.ResetMeetsTheInvariant :=
  resetBlock_inv (s := State.reset) (Nat.succ_pos _)

/-- Settles O54: by the observations of `State.resetBlock`. -/
theorem resetSetsEveryPieceOfState : Obligations.ResetSetsEveryPieceOfState := by
  unfold Obligations.ResetSetsEveryPieceOfState
  intro s hin
  refine ⟨_, step_reset hin, resetBlock_readByte _, resetBlock_reg _, rfl, rfl, rfl, resetBlock_stack _, rfl, rfl,
    resetBlock_pixel _, resetBlock_key _, rfl, rfl, rfl, rfl, rfl, ?_⟩
  refine Keeps.unchanged (keeps_iff.mpr ?_) rfl
  simp [State.resetBlock]

/-- Settles O55: the reset state is what a reset of itself gives. -/
theorem resetStateHoldsTheResetValues : Obligations.ResetStateHoldsTheResetValues :=
  ⟨resetBlock_readByte .reset, resetBlock_reg .reset, rfl, rfl, rfl, resetBlock_stack .reset, rfl, rfl,
    resetBlock_pixel .reset, resetBlock_key .reset, rfl, rfl, rfl⟩

end Sys2Proof.Machine

/-! SUPPORT. A block store in range and its bytes read back, and a running step as the fetch of the polled state. -/

namespace Sys2Proof.Machine

/-- A block store leaves `V[r]` at the address `r` places into it (R95). -/
theorem State.storeBytes_regsUpTo_readByte (s : State) {x r : Reg} (h : r ≤ x) (a : Nat) :
    (s.storeBytes a (s.regsUpTo x)).readByte (a + r.val) = s.reg r := by
  have inside : r.val < (s.regsUpTo x).length := by
    rw [State.regsUpTo_length]
    exact Nat.lt_succ_of_le h
  rw [State.storeBytes_readByte, dif_pos ⟨Nat.le_add_right a r.val, Nat.add_lt_add_left inside a⟩]
  simp only [Nat.add_sub_cancel_left, State.regsUpTo_get s x r h]

/-- In range, a block store answers its effect and no fault (R95). -/
theorem exec_ldIX_inside {x : Reg} {s : State} (h : s.baseAddr + x.val < 4096) :
    exec (.ldIX x) s = .next ((s.storeBytes s.baseAddr (s.regsUpTo x)).setIndex (s.indexPast x)).advance :=
  execLdIX_next.mpr (.inl ⟨s.rangeFault_inside h, rfl⟩)

/-- A running step whose poll brings no close is the fetch of the polled state (R108). -/
theorem step_poll_running {s : State} {es : List HostEvent} (hin : s.nextInput = .poll es) (hc : closes es = false)
    (hr : s.rs = .running) (started : ∀ len, s.boot ≠ .outOfSpace len) : step s = fetchCycle (s.polled es) := by
  rw [step_poll hin, loopCycle_running es started hr, hc]
  rfl

end Sys2Proof.Machine

/-! PROOFS. The statements about memory: a store seen by the next fetch, and the fetch itself. -/

namespace Sys2Proof.Machine

/-- Settles O29: `I` is the address the next fetch reads, and there the store left `V[0]` and `V[1]`. -/
theorem storeIsSeenByTheNextFetch : Obligations.StoreIsSeenByTheNextFetch := by
  unfold Obligations.StoreIsSeenByTheNextFetch
  intro x s t hx hi hb h
  have base : s.baseAddr = (s.pc + 2).toNat := congrArg BitVec.toNat hi
  have noWrap : (s.pc + 2).toNat = s.pc.toNat + 2 := BitVec.toNat_add_of_lt (show s.pc.toNat + 2 < 65536 by omega)
  rw [exec_ldIX_inside (by omega)] at h
  obtain rfl := Host.Outcome.next.inj h
  have first : (s.storeBytes s.baseAddr (s.regsUpTo x)).readByte s.baseAddr = s.reg 0 :=
    s.storeBytes_regsUpTo_readByte (r := 0) (Fin.zero_le x) s.baseAddr
  have second : (s.storeBytes s.baseAddr (s.regsUpTo x)).readByte (s.baseAddr + 1) = s.reg 1 :=
    s.storeBytes_regsUpTo_readByte (r := 1) hx s.baseAddr
  refine ⟨by simp, ?_⟩
  rw [State.fetchWord_toNat]
  simp only [State.advance_pc, State.setIndex_pc, State.storeBytes_pc, State.advance_readByte, State.setIndex_readByte,
    ← base, first, second]

/-- Settles O38: the merge is `State.fetchWord_toNat`; the fault is raised in the polled state. -/
theorem fetchIsBigEndianAndBounded : Obligations.FetchIsBigEndianAndBounded := by
  unfold Obligations.FetchIsBigEndianAndBounded
  refine ⟨State.fetchWord_toNat, fun s es hin hc hr started hp => ?_⟩
  refine ⟨_, (step_poll_running hin hc hr started).trans (fetchCycle_outside hp), rfl, rfl, rfl, ?_⟩
  exact Keeps.unchanged (keeps_iff.mpr (by simp [State.polled])) rfl

end Sys2Proof.Machine

/-! SUPPORT. Decoding and encoding against each other: words put back together from their fields (R63), and both
directions of the instruction tables (R54 to R59), and the illegal words counted (R61). -/

namespace Sys2Proof.Machine

/-! ### A word from its fields (R63) -/

theorem toNat_eq_fieldG_fieldNNN (w : Word) : w.toNat = (fieldG w).toNat * 0x1000 + (fieldNNN w).toNat := by
  rw [fieldG_toNat, fieldNNN_toNat]
  omega

theorem toNat_eq_fieldG_fieldX_fieldNN (w : Word) :
    w.toNat = (fieldG w).toNat * 0x1000 + (fieldX w).val * 0x100 + (fieldNN w).toNat := by
  rw [fieldG_toNat, fieldX_val, fieldNN_toNat]
  omega

theorem toNat_eq_fieldG_fieldX_fieldY_fieldN (w : Word) :
    w.toNat = (fieldG w).toNat * 0x1000 + (fieldX w).val * 0x100 + (fieldY w).val * 0x10 + (fieldN w).toNat := by
  rw [fieldG_toNat, fieldX_val, fieldY_val, fieldN_toNat]
  omega

theorem packNNN_fields {w : Word} {g : Nat} (hg : (fieldG w).toNat = g) : packNNN g (fieldNNN w) = w := by
  subst hg
  apply BitVec.eq_of_toNat_eq
  rw [packNNN_toNat (fieldG w).isLt, ← toNat_eq_fieldG_fieldNNN]

theorem packXNN_fields {w : Word} {g : Nat} (hg : (fieldG w).toNat = g) : packXNN g (fieldX w) (fieldNN w) = w := by
  subst hg
  apply BitVec.eq_of_toNat_eq
  rw [packXNN_toNat (fieldG w).isLt, ← toNat_eq_fieldG_fieldX_fieldNN]

theorem packXYN_fields {w : Word} {g : Nat} (hg : (fieldG w).toNat = g) :
    packXYN g (fieldX w) (fieldY w) (fieldN w) = w := by
  subst hg
  apply BitVec.eq_of_toNat_eq
  rw [packXYN_toNat (fieldG w).isLt, ← toNat_eq_fieldG_fieldX_fieldY_fieldN]

/-! ### From the instruction to the word and back -/

theorem decodeWord_eq_ok {w : Word} {i : Instr} : decodeWord w = .ok i ↔ decodeGroup w = some i := by
  unfold decodeWord
  cases decodeGroup w <;> simp

/-- By the row of the instruction: its group and selector lead the dispatcher back to the row, and the fields give the
operands. -/
theorem decodeGroup_encode (i : Instr) : decodeGroup (encode i) = some i := by
  cases i with
  | cls | ret => simp [encode, decodeGroup, decode0, fieldG_packNNN, fieldNNN_packNNN, Sel.cls, Sel.ret]
  | jpNNN | callNNN | ldINNN | jpV0NNN => simp [encode, decodeGroup, fieldG_packNNN, fieldNNN_packNNN]
  | seXNN | sneXNN | ldXNN | addXNN | rndXNN => simp [encode, decodeGroup, fieldG_packXNN, fieldX_packXNN, fieldNN_packXNN]
  | seXY | sneXY | drwXYN =>
    simp [encode, decodeGroup, fieldG_packXYN, fieldX_packXYN, fieldY_packXYN, fieldN_packXYN]
  | ldXY | orXY | andXY | xorXY | addXY | subXY | shrXY | subnXY | shlXY =>
    simp [encode, decodeGroup, decode8, fieldG_packXYN, fieldX_packXYN, fieldY_packXYN, fieldN_packXYN]
  | skpX | sknpX =>
    simp [encode, decodeGroup, decodeE, fieldG_packXNN, fieldX_packXNN, fieldNN_packXNN, Sel.skpX, Sel.sknpX]
  | ldXDT | ldXK | ldDTX | ldSTX | addIX | ldFX | ldBX | ldIX | ldXI =>
    simp [encode, decodeGroup, decodeF, fieldG_packXNN, fieldX_packXNN, fieldNN_packXNN, Sel.ldXDT, Sel.ldXK, Sel.ldDTX,
      Sel.ldSTX, Sel.addIX, Sel.ldFX, Sel.ldBX, Sel.ldIX, Sel.ldXI]

theorem encode_of_decode0 {w : Word} {i : Instr} (hg : (fieldG w).toNat = 0x0) (h : decode0 w = some i) : encode i = w := by
  unfold decode0 at h
  split_ifs at h with sel sel
  all_goals
    obtain rfl := Option.some.inj h
    rw [encode, ← sel, packNNN_fields hg]

theorem encode_of_decode8 {w : Word} {i : Instr} (hg : (fieldG w).toNat = 0x8) (h : decode8 w = some i) : encode i = w := by
  have pack (n : BitVec 4) (sel : (fieldN w).toNat = n.toNat) : packXYN 0x8 (fieldX w) (fieldY w) n = w :=
    BitVec.eq_of_toNat_eq sel ▸ packXYN_fields hg
  unfold decode8 at h
  split at h
  case h_10 => cases h
  all_goals
    obtain rfl := Option.some.inj h
    exact pack _ ‹_›

theorem encode_of_decodeE {w : Word} {i : Instr} (hg : (fieldG w).toNat = 0xE) (h : decodeE w = some i) : encode i = w := by
  unfold decodeE at h
  split_ifs at h with sel sel
  all_goals
    obtain rfl := Option.some.inj h
    rw [encode, ← sel, packXNN_fields hg]

theorem encode_of_decodeF {w : Word} {i : Instr} (hg : (fieldG w).toNat = 0xF) (h : decodeF w = some i) : encode i = w := by
  unfold decodeF at h
  split_ifs at h with sel sel sel sel sel sel sel sel sel
  all_goals
    obtain rfl := Option.some.inj h
    rw [encode, ← sel, packXNN_fields hg]

theorem encode_of_decodeGroup {w : Word} {i : Instr} (h : decodeGroup w = some i) : encode i = w := by
  unfold decodeGroup at h
  split at h
  case h_1 hg => exact encode_of_decode0 hg h
  case h_9 hg => exact encode_of_decode8 hg h
  case h_15 hg => exact encode_of_decodeE hg h
  case h_16 hg => exact encode_of_decodeF hg h
  case h_17 => cases h
  case h_2 hg | h_3 hg | h_11 hg | h_12 hg =>
    obtain rfl := Option.some.inj h
    exact packNNN_fields hg
  case h_4 hg | h_5 hg | h_7 hg | h_8 hg | h_13 hg =>
    obtain rfl := Option.some.inj h
    exact packXNN_fields hg
  case h_6 hg | h_10 hg | h_14 hg =>
    obtain rfl := Option.some.inj h
    exact packXYN_fields hg

/-- An instruction's word decodes to it, so its word as a number settles both halves of `EncodedAs`. -/
theorem encodedAs_of_toNat {i : Instr} {n : Nat} (h : (encode i).toNat = n) : EncodedAs i n := by
  refine ⟨h, ?_⟩
  rw [← h, BitVec.ofNat_toNat, BitVec.setWidth_eq]
  exact decodeWord_eq_ok.mpr (decodeGroup_encode i)

/-! ### Illegal words and their counts (R61) -/

theorem decodeWord_eq_invalidOpcode (w : Word) :
    decodeWord w = .error (.invalidOpcode w) ↔ illegalWord w.toNat = true := by
  rw [← decodeGroup_eq_none]
  unfold decodeWord
  cases decodeGroup w <;> simp

theorem exists_decodeWord_eq_ok (w : Word) : (∃ i, decodeWord w = .ok i) ↔ illegalWord w.toNat = false := by
  simp only [decodeWord_eq_ok, ← Option.ne_none_iff_exists', ne_eq, decodeGroup_eq_none, Bool.not_eq_true]

/-- How many words of group `g` are illegal. -/
def illegalCount (g : Nat) : Nat := ((List.range 0x1000).filter fun a => illegalWord (g * 0x1000 + a)).length

/-- A count over one group may use any reading of the illegal words that is right within the group. -/
theorem illegalCount_congr {g : Nat} {p : Nat → Bool} (h : ∀ a < 0x1000, illegalWord (g * 0x1000 + a) = p a) :
    illegalCount g = ((List.range 0x1000).filter p).length :=
  congrArg List.length (List.filter_congr fun a ha => h a (List.mem_range.mp ha))

/-- Over `m` periods of length `k`, a test of the remainder holds `m` times as often as over one. -/
theorem length_filter_mod (p : Nat → Bool) (k m : Nat) :
    ((List.range (k * m)).filter fun a => p (a % k)).length = m * ((List.range k).filter p).length := by
  induction m with
  | zero => simp
  | succ m ih =>
    have period : (List.range k).filter (fun a => p ((k * m + a) % k)) = (List.range k).filter p :=
      List.filter_congr fun a ha => by rw [Nat.mul_add_mod, Nat.mod_eq_of_lt (List.mem_range.mp ha)]
    rw [Nat.mul_succ, List.range_add, List.filter_append, List.length_append, ih, List.filter_map, List.length_map,
      Nat.succ_mul, ← period]
    rfl

theorem group_div {g a : Nat} (ha : a < 0x1000) : (g * 0x1000 + a) / 0x1000 = g := by omega

/-- Where the illegal words of a group are told by the remainder to `k`, one period of `k` words gives the count. -/
theorem illegalCount_of_mod {g k m : Nat} {p : Nat → Bool} (hk : k * m = 0x1000)
    (h : ∀ a < 0x1000, illegalWord (g * 0x1000 + a) = p (a % k)) :
    illegalCount g = m * ((List.range k).filter p).length := by
  rw [illegalCount_congr h, ← hk, length_filter_mod]

/-- All words of group 0 but the two that R54 routes. -/
theorem illegalCount_group0 : illegalCount 0x0 = 4094 := by
  have reading : ∀ a < 0x1000, illegalWord (0x0 * 0x1000 + a) = (a != 0x00E0 && a != 0x00EE) := by
    intro a ha
    simp only [illegalWord, Nat.zero_mul, Nat.zero_add, Nat.div_eq_of_lt ha]
  have erased : (List.range 0x1000).filter (fun a => a != 0x00E0 && a != 0x00EE) =
      ((List.range 0x1000).erase 0x00EE).erase 0x00E0 := by
    rw [List.nodup_range.erase_eq_filter, (List.nodup_range.filter _).erase_eq_filter, List.filter_filter]
  rw [illegalCount_congr reading, erased, List.length_erase_of_mem, List.length_erase_of_mem, List.length_range]
  · exact List.mem_range.mpr (by decide)
  · exact (List.mem_erase_of_ne (by decide)).mpr (List.mem_range.mpr (by decide))

/-- Seven of the sixteen low nibbles (R57). -/
theorem illegalCount_group8 : illegalCount 0x8 = 1792 := by
  refine illegalCount_of_mod (k := 0x10) (m := 0x100)
    (p := fun n => [0x8, 0x9, 0xA, 0xB, 0xC, 0xD, 0xF].contains n) rfl fun a ha => ?_
  have nibble : (0x8 * 0x1000 + a) % 0x10 = a % 0x10 := by omega
  simp only [illegalWord, group_div ha, nibble]

/-- All low bytes but two (R58). -/
theorem illegalCount_groupE : illegalCount 0xE = 4064 := by
  refine (illegalCount_of_mod (k := 0x100) (m := 0x10)
    (p := fun n => !([0x9E, 0xA1].contains n))
    rfl fun a ha => ?_).trans (by decide +kernel)
  have low : (0xE * 0x1000 + a) % 0x100 = a % 0x100 := by omega
  simp only [illegalWord, group_div ha, low]

/-- All low bytes but nine (R59). -/
theorem illegalCount_groupF : illegalCount 0xF = 3952 := by
  refine (illegalCount_of_mod (k := 0x100) (m := 0x10)
    (p := fun n => !([0x07, 0x0A, 0x15, 0x18, 0x1E, 0x29, 0x33, 0x55, 0x65].contains n))
    rfl fun a ha => ?_).trans (by decide +kernel)
  have low : (0xF * 0x1000 + a) % 0x100 = a % 0x100 := by omega
  simp only [illegalWord, group_div ha, low]

/-- The other groups route every word (R55, R56). -/
theorem illegalCount_other {g : Nat} (h0 : g ≠ 0x0) (h8 : g ≠ 0x8) (hE : g ≠ 0xE) (hF : g ≠ 0xF) :
    illegalCount g = 0 := by
  have legal : ∀ a < 0x1000, illegalWord (g * 0x1000 + a) = false := by
    intro a ha
    rw [illegalWord, group_div ha]
    split <;> trivial
  rw [illegalCount_congr legal]
  simp

end Sys2Proof.Machine

/-! PROOFS. The statements about encoding, the two register skips, and that every instruction executes. -/

namespace Sys2Proof.Machine

/-- Settles O1: by the instruction's row (`decodeGroup_encode`). -/
theorem decodeInvertsEncode : Obligations.DecodeInvertsEncode :=
  fun i => decodeWord_eq_ok.mpr (decodeGroup_encode i)

/-- Settles O2: by the word's group (`encode_of_decodeGroup`). -/
theorem encodeInvertsDecode : Obligations.EncodeInvertsDecode :=
  fun _ _ h => encode_of_decodeGroup (decodeWord_eq_ok.mp h)

/-- Settles O6: the dispatcher answers nothing exactly on R61's words (`decodeGroup_eq_none`); R61's counts are the
`illegalCount` lemmas; and the fault is raised in the polled state. -/
theorem illegalWordsRaiseInvalidOpcode : Obligations.IllegalWordsRaiseInvalidOpcode := by
  unfold Obligations.IllegalWordsRaiseInvalidOpcode
  refine ⟨fun w => (decodeWord_eq_invalidOpcode w).symm, fun w => (exists_decodeWord_eq_ok w).symm, fun g => ?_,
    fun s es hin hc hr started hp hw => ?_⟩
  · change illegalCount g.val = _
    split_ifs with h0 h8 hE hF
    · exact h0 ▸ illegalCount_group0
    · exact h8 ▸ illegalCount_group8
    · exact hE ▸ illegalCount_groupE
    · exact hF ▸ illegalCount_groupF
    · exact illegalCount_other (Fin.val_ne_of_ne h0) (Fin.val_ne_of_ne h8) (Fin.val_ne_of_ne hE) (Fin.val_ne_of_ne hF)
  · have illegal : decodeWord (s.polled es).fetchWord = .error (.invalidOpcode s.fetchWord) :=
      (decodeWord_eq_invalidOpcode s.fetchWord).mpr hw
    refine ⟨_, (step_poll_running hin hc hr started).trans (fetchCycle_illegal hp illegal), rfl, rfl, rfl, ?_⟩
    exact Keeps.unchanged (keeps_iff.mpr (by simp [State.polled])) rfl

/-- Settles O3: the numbers are the fields' lemmas of Laws/Decode, the rest is how the fields are defined. -/
theorem fieldsAtTheirBitRanges : Obligations.FieldsAtTheirBitRanges := fun w =>
  ⟨fieldG_toNat w, fieldX_val w, fieldY_val w, fieldN_toNat w, fieldNN_toNat w, fieldNNN_toNat w,
    rfl, rfl, rfl, rfl, rfl, rfl⟩

/-- Settles O4: the three decompositions of a word, one a format. -/
theorem fieldsReassembleTheWord : Obligations.FieldsReassembleTheWord := fun w =>
  ⟨toNat_eq_fieldG_fieldX_fieldY_fieldN w, toNat_eq_fieldG_fieldNNN w, toNat_eq_fieldG_fieldX_fieldNN w⟩

/-- Settles O5: each legal word of the table is an instruction's encoding, and the two others are among R61's. -/
theorem sampleWordsDecode : Obligations.SampleWordsDecode :=
  ⟨decodeInvertsEncode .cls, decodeInvertsEncode .ret, (decodeWord_eq_invalidOpcode 0x0123).mpr rfl,
    decodeInvertsEncode (.jpNNN 0xABC), decodeInvertsEncode (.seXY 1 2 1), (decodeWord_eq_invalidOpcode 0x8008).mpr rfl,
    decodeInvertsEncode (.shlXY 0 0), decodeInvertsEncode (.jpV0NNN 0x123), decodeInvertsEncode (.sknpX 1),
    decodeInvertsEncode (.ldXK 0), decodeInvertsEncode (.ldXI 0xF)⟩

/-- Settles O11: `packXYN` gives the words, `State.skipIf` the two next addresses, `mayWrite` the frame. -/
theorem skipsOnRegister : Obligations.SkipsOnRegister := by
  unfold Obligations.SkipsOnRegister
  intro x y z s
  refine ⟨encodedAs_of_toNat (packXYN_toNat (by decide) x y z), encodedAs_of_toNat (packXYN_toNat (by decide) x y z),
    ⟨_, rfl, ?_, instructionsWriteOnlyTheirParts (.seXY x y z) s _ rfl⟩,
    ⟨_, rfl, ?_, instructionsWriteOnlyTheirParts (.sneXY x y z) s _ rfl⟩⟩
  · simp only [State.skipIf_pc, beq_iff_eq]
  · simp only [State.skipIf_pc, bne_iff_ne]

/-- Settles O48: where an instruction can fault, its fault and its effect are both next states; any other has one effect. -/
theorem everyInstructionAnswersANextState : Obligations.EveryInstructionAnswersANextState := by
  unfold Obligations.EveryInstructionAnswersANextState
  intro i s
  cases i with
  | ret | callNNN | drwXYN | skpX | sknpX | ldBX | ldIX | ldXI =>
    simp only [exec, execRet, execCallNNN, execDrwXYN, execSkpX, execSknpX, execLdBX, execLdIX, execLdXI]
    split <;> exact ⟨_, rfl⟩
  | _ => exact ⟨_, rfl⟩

end Sys2Proof.Machine

/-! SUPPORT. A fault's frame, the jump targets as numbers (R8), and RET and CALL by the number of stack entries in use. -/

namespace Sys2Proof.Machine

/-- A raised fault leaves everything but the run status (R116). -/
theorem State.raise_unchanged (s : State) (kind : FaultKind) (opcode : Option Word) (info : Option Nat) :
    Unchanged [.rs] s (s.raise kind opcode info) :=
  Keeps.unchanged (keeps_iff.mpr (by simp)) rfl

/-- A jump leaves everything but `PC` (R67). -/
theorem State.setPc_unchanged (s : State) (a : Word) : Unchanged [.pc] s (s.setPc a) :=
  Keeps.unchanged (keeps_iff.mpr (by simp)) rfl

theorem wordOfAddr_toNat (nnn : BitVec 12) : (wordOfAddr nnn).toNat = nnn.toNat :=
  BitVec.toNat_setWidth_of_le (by decide)

theorem wordOfByte_toNat (b : Byte) : (wordOfByte b).toNat = b.toNat :=
  BitVec.toNat_setWidth_of_le (by decide)

/-- A byte and a 12-bit address add up to at most 0x10FE, so the 16-bit sum does not wrap (R75). -/
theorem wordOfByte_add_wordOfAddr_toNat (b : Byte) (nnn : BitVec 12) :
    (wordOfByte b + wordOfAddr nnn).toNat = b.toNat + nnn.toNat := by
  have noWrap : b.toNat + nnn.toNat < 65536 := by
    have := b.isLt
    have := nnn.isLt
    omega
  rw [← wordOfByte_toNat b, ← wordOfAddr_toNat nnn] at noWrap ⊢
  exact BitVec.toNat_add_of_lt noWrap

/-- With an entry in use, RET goes 2 past the top one and leaves the entry in its place (R68, D8). -/
theorem exec_ret_of_pos {s : State} (h : 0 < s.sp.val) :
    exec .ret s = .next (State.setPc { s with sp := ⟨s.sp.val - 1, Nat.lt_succ_of_lt s.sp_pred_lt⟩ }
      (s.stack[s.sp.val - 1]'s.sp_pred_lt + 2)) :=
  execRet_next.mpr (.inl ⟨_, _, s.pop_of_pos h, rfl⟩)

theorem exec_ret_empty {s : State} (h : s.sp.val = 0) :
    exec .ret s = .next (s.raise .stackUnderflow (some (encode .ret)) none) :=
  execRet_next.mpr (.inr ⟨s.pop_empty h, rfl⟩)

/-- With a free entry, CALL writes its own address there and jumps (R70, D8). -/
theorem exec_callNNN_of_lt {nnn : BitVec 12} {s : State} (h : s.sp.val < 16) :
    exec (.callNNN nnn) s = .next (State.setPc
      { s with stack := s.stack.set s.sp.val s.pc, sp := ⟨s.sp.val + 1, Nat.succ_lt_succ h⟩ } (wordOfAddr nnn)) :=
  execCallNNN_next.mpr (.inl ⟨_, s.push_of_lt s.pc h, rfl⟩)

theorem exec_callNNN_full {nnn : BitVec 12} {s : State} (h : s.sp.val = 16) :
    exec (.callNNN nnn) s = .next (s.raise .stackOverflow (some (encode (.callNNN nnn))) none) :=
  execCallNNN_next.mpr (.inr ⟨s.push_full s.pc h, rfl⟩)

end Sys2Proof.Machine

/-! PROOFS. The statements about control flow, but for the register skips. -/

namespace Sys2Proof.Machine

/-- Settles O7: by the number of entries in use, `exec_ret_of_pos` or `exec_ret_empty`. -/
theorem retPopsAndAddsTwo : Obligations.RetPopsAndAddsTwo := by
  unfold Obligations.RetPopsAndAddsTwo
  refine ⟨encodedAs_of_toNat (packNNN_toNat (by decide) Sel.ret), fun s j hj => ?_, fun s empty => ?_⟩
  · have top : s.sp.val - 1 = j.val := by omega
    refine ⟨_, exec_ret_of_pos (by omega), top, ?_, Keeps.unchanged (keeps_iff.mpr (by simp)) rfl⟩
    simp only [State.setPc_pc, top, Fin.getElem_fin]
  · exact ⟨_, exec_ret_empty empty, rfl, s.raise_unchanged _ _ _⟩

/-- Settles O8: the target is the operand itself, as a number (`wordOfAddr_toNat`). -/
theorem jpSetsPc : Obligations.JpSetsPc := fun nnn s =>
  ⟨encodedAs_of_toNat (packNNN_toNat (by decide) nnn), _, rfl, wordOfAddr_toNat nnn, s.setPc_unchanged _⟩

/-- Settles O9: by whether an entry is free, `exec_callNNN_of_lt` or `exec_callNNN_full`. -/
theorem callPushesItsOwnAddress : Obligations.CallPushesItsOwnAddress := by
  unfold Obligations.CallPushesItsOwnAddress
  refine ⟨fun nnn => encodedAs_of_toNat (packNNN_toNat (by decide) nnn), fun nnn s j hj => ?_, fun nnn s full => ?_⟩
  · refine ⟨_, exec_callNNN_of_lt (hj ▸ j.isLt), congrArg (· + 1) hj, fun k => ?_, wordOfAddr_toNat nnn,
      Keeps.unchanged (keeps_iff.mpr (by simp)) rfl⟩
    simp only [State.setPc_stack, Fin.getElem_fin, Vector.getElem_set, hj, Fin.ext_iff, eq_comm]
  · exact ⟨_, exec_callNNN_full full, rfl, s.raise_unchanged _ _ _⟩

/-- Settles O10: `packXNN` gives the words, `State.skipIf` the two next addresses, `mayWrite` the frame. -/
theorem skipsOnImmediate : Obligations.SkipsOnImmediate := by
  unfold Obligations.SkipsOnImmediate
  intro x nn s
  refine ⟨encodedAs_of_toNat (packXNN_toNat (by decide) x nn), encodedAs_of_toNat (packXNN_toNat (by decide) x nn),
    ⟨_, rfl, ?_, instructionsWriteOnlyTheirParts (.seXNN x nn) s _ rfl⟩,
    ⟨_, rfl, ?_, instructionsWriteOnlyTheirParts (.sneXNN x nn) s _ rfl⟩⟩
  · simp only [State.skipIf_pc, beq_iff_eq]
  · simp only [State.skipIf_pc, bne_iff_ne]

/-- Settles O12: the sum does not wrap (`wordOfByte_add_wordOfAddr_toNat`). -/
theorem jpV0AddsRegisterZero : Obligations.JpV0AddsRegisterZero := fun nnn s =>
  ⟨encodedAs_of_toNat (packNNN_toNat (by decide) nnn), _, rfl, wordOfByte_add_wordOfAddr_toNat (s.reg 0) nnn,
    s.setPc_unchanged _⟩

/-- Settles O13: the CALL left its own address in the entry that the RET pops, by what each does with the entry at the `SP`
before the CALL (`callPushesItsOwnAddress`, `retPopsAndAddsTwo`). -/
theorem callThenReturnResumesAfterCall : Obligations.CallThenReturnResumesAfterCall := by
  unfold Obligations.CallThenReturnResumesAfterCall
  intro nnn s t u room call sameSp sameStack
  obtain ⟨-, pushes, -⟩ := callPushesItsOwnAddress
  obtain ⟨-, pops, -⟩ := retPopsAndAddsTwo
  obtain ⟨_, next, spCall, stackCall, -⟩ := pushes nnn s ⟨s.sp.val, room⟩ rfl
  obtain rfl := Host.Outcome.next.inj (call.symm.trans next)
  obtain ⟨r, ret, spRet, pcRet, -⟩ := pops u ⟨s.sp.val, room⟩ (by rw [sameSp, spCall])
  refine ⟨r, ret, ?_, Fin.ext spRet⟩
  rw [pcRet, sameStack, stackCall, if_pos rfl]

end Sys2Proof.Machine

/-! SUPPORT. The register instructions: their words, the two ways in which they write a result (R15, R76), and their results
and flags as numbers. -/

namespace Sys2Proof.Machine

/-! ### Words of group 8 (R57) -/

/-- The group and the selector put together, as the obligations write the words. -/
theorem packXYN_group8_toNat (x y : Reg) (n : BitVec 4) :
    (packXYN 0x8 x y n).toNat = 0x8000 + n.toNat + x.val * 0x100 + y.val * 0x10 := by
  rw [packXYN_toNat (by decide)]
  omega

/-! ### Instructions that write a result, with and without a flag -/

theorem State.writeResult_unchanged (s : State) (x : Reg) (b : Byte) : Unchanged [.v, .pc] s (s.writeResult x b) :=
  Keeps.unchanged (keeps_iff.mpr (by simp)) rfl

theorem State.writeResultFlag_unchanged (s : State) (x : Reg) (b : Byte) (c : Bool) :
    Unchanged [.v, .pc] s (s.writeResultFlag x b c) :=
  Keeps.unchanged (keeps_iff.mpr (by simp)) rfl

/-- What an instruction does that writes a result and no flag (R76, D15). -/
theorem exec_of_writeResult {i : Instr} {s : State} {x : Reg} {b : Byte} (h : exec i s = .next (s.writeResult x b)) :
    ∃ t, exec i s = .next t ∧ (∀ r, t.reg r = if r = x then b else s.reg r) ∧ t.pc = s.pc + 2 ∧
      Unchanged [.v, .pc] s t :=
  ⟨_, h, s.writeResult_reg x b, rfl, s.writeResult_unchanged x b⟩

/-- What an instruction does that writes a result and then VF (R15, R76), both as numbers. -/
theorem exec_of_writeResultFlag {i : Instr} {s : State} {x : Reg} {b : Byte} {c : Bool} {flag result : Nat}
    (h : exec i s = .next (s.writeResultFlag x b c)) (hflag : (flagByte c).toNat = flag) (hresult : b.toNat = result) :
    ∃ t, exec i s = .next t ∧
      (∀ r, (t.reg r).toNat = if r = 0xF then flag else if r = x then result else (s.reg r).toNat) ∧
      t.pc = s.pc + 2 ∧ Unchanged [.v, .pc] s t := by
  refine ⟨_, h, fun r => ?_, rfl, s.writeResultFlag_unchanged x b c⟩
  subst hflag hresult
  rw [State.writeResultFlag_reg, apply_ite BitVec.toNat, apply_ite BitVec.toNat]

/-! ### Flags as numbers (R14) -/

theorem flagByte_carry_toNat (a b : Byte) :
    (flagByte (carry a b)).toNat = if a.toNat + b.toNat > 255 then 1 else 0 := by
  simp only [flagByte_toNat, carry, decide_eq_true_eq, gt_iff_lt]

theorem flagByte_noBorrow_toNat (a b : Byte) :
    (flagByte (noBorrow a b)).toNat = if a.toNat ≥ b.toNat then 1 else 0 := by
  simp only [flagByte_toNat, noBorrow, decide_eq_true_eq, ge_iff_le]

theorem flagByte_lowBit_toNat (a : Byte) : (flagByte (lowBit a)).toNat = a.toNat % 2 := by
  rw [flagByte_toNat, lowBit, ← BitVec.testBit_toNat, Nat.testBit_zero]
  simp only [decide_eq_true_eq]
  split <;> omega

/-- A byte is below 256, so its bit 7 is all that halving it seven times leaves. -/
theorem flagByte_highBit_toNat (a : Byte) : (flagByte (highBit a)).toNat = a.toNat / 128 := by
  have := a.isLt
  rw [flagByte_toNat, highBit, ← BitVec.testBit_toNat, Nat.testBit_eq_decide_div_mod_eq]
  simp only [decide_eq_true_eq]
  split <;> omega

/-! ### Results as numbers -/

/-- The subtrahend is at most the 256 that keeps the difference from going below 0 (R84). -/
theorem byte_sub_toNat (a b : Byte) : (a - b).toNat = (a.toNat + 256 - b.toNat) % 256 := by
  have := b.isLt
  rw [BitVec.toNat_sub]
  congr 1
  omega

theorem byte_shiftRight_one_toNat (a : Byte) : (a >>> 1).toNat = a.toNat / 2 := by
  rw [BitVec.toNat_ushiftRight, Nat.shiftRight_eq_div_pow, Nat.pow_one]

theorem byte_shiftLeft_one_toNat (a : Byte) : (a <<< 1).toNat = a.toNat * 2 % 256 := by
  rw [BitVec.toNat_shiftLeft, Nat.shiftLeft_eq, Nat.pow_one]

end Sys2Proof.Machine

/-! PROOFS. The statements about register loads, arithmetic and bitwise operations. -/

namespace Sys2Proof.Machine

/-- Settles O17: the carry is read from the exact sum (`flagByte_carry_toNat`), and VF is written after `V[x]`. -/
theorem addSetsCarry : Obligations.AddSetsCarry := fun x y _ =>
  ⟨encodedAs_of_toNat (packXYN_group8_toNat x y 0x4),
    exec_of_writeResultFlag rfl (flagByte_carry_toNat _ _) (BitVec.toNat_add _ _)⟩

/-- Settles O18: the comparison is VF (`flagByte_noBorrow_toNat`), written after the difference (`byte_sub_toNat`). -/
theorem subSetsNoBorrow : Obligations.SubSetsNoBorrow := fun x y _ =>
  ⟨encodedAs_of_toNat (packXYN_group8_toNat x y 0x5),
    exec_of_writeResultFlag rfl (flagByte_noBorrow_toNat _ _) (byte_sub_toNat _ _)⟩

/-- Settles O19: the bit shifted out is the remainder (`flagByte_lowBit_toNat`) of the halving. -/
theorem shrShiftsVxRight : Obligations.ShrShiftsVxRight := fun x y _ =>
  ⟨encodedAs_of_toNat (packXYN_group8_toNat x y 0x6),
    exec_of_writeResultFlag rfl (flagByte_lowBit_toNat _) (byte_shiftRight_one_toNat _)⟩

/-- Settles O20: as SUB_XY, with the operands exchanged. -/
theorem subnSetsNoBorrow : Obligations.SubnSetsNoBorrow := fun x y _ =>
  ⟨encodedAs_of_toNat (packXYN_group8_toNat x y 0x7),
    exec_of_writeResultFlag rfl (flagByte_noBorrow_toNat _ _) (byte_sub_toNat _ _)⟩

/-- Settles O21: the bit shifted out is the quotient by 128 (`flagByte_highBit_toNat`), lost from the doubled byte. -/
theorem shlShiftsVxLeft : Obligations.ShlShiftsVxLeft := fun x y _ =>
  ⟨encodedAs_of_toNat (packXYN_group8_toNat x y 0xE),
    exec_of_writeResultFlag rfl (flagByte_highBit_toNat _) (byte_shiftLeft_one_toNat _)⟩

/-- Settles O14: the operand is the result that is written (`exec_of_writeResult`). -/
theorem loadImmediate : Obligations.LoadImmediate := fun x nn _ =>
  ⟨encodedAs_of_toNat (packXNN_toNat (by decide) x nn), exec_of_writeResult rfl⟩

/-- Settles O15: the byte sum is the sum modulo 256, and nothing but `V[x]` is written among the registers. -/
theorem addImmediateWrapsWithoutCarry : Obligations.AddImmediateWrapsWithoutCarry := by
  unfold Obligations.AddImmediateWrapsWithoutCarry
  intro x nn s
  obtain ⟨t, next, regs, pc, frame⟩ := exec_of_writeResult (i := .addXNN x nn) (s := s) rfl
  refine ⟨encodedAs_of_toNat (packXNN_toNat (by decide) x nn), t, next, fun r => ?_, pc, frame⟩
  rw [regs, apply_ite BitVec.toNat, BitVec.toNat_add]

/-- Settles O16: each of the four writes its result and no flag (`exec_of_writeResult`). -/
theorem moveAndLogicLeaveTheFlag : Obligations.MoveAndLogicLeaveTheFlag := fun x y _ =>
  ⟨encodedAs_of_toNat (packXYN_group8_toNat x y 0x0), encodedAs_of_toNat (packXYN_group8_toNat x y 0x1),
    encodedAs_of_toNat (packXYN_group8_toNat x y 0x2), encodedAs_of_toNat (packXYN_group8_toNat x y 0x3),
    exec_of_writeResult rfl, exec_of_writeResult rfl, exec_of_writeResult rfl, exec_of_writeResult rfl⟩

/-- Settles O22: the draw is counted before the result is written, so the frame is the instruction's own (`mayWrite`). -/
theorem rndMasksOneDraw : Obligations.RndMasksOneDraw := fun x nn s =>
  ⟨encodedAs_of_toNat (packXNN_toNat (by decide) x nn), _, rfl, s.countDraw.writeResult_reg x _, rfl, rfl,
    instructionsWriteOnlyTheirParts (.rndXNN x nn) s _ rfl⟩

end Sys2Proof.Machine

/-! SUPPORT. The index and memory instructions: their words, the write of `I`, the decimal digits in memory, and the effect or
the fault by whether the address range is in bounds (R90). -/

namespace Sys2Proof.Machine

/-! ### Words of group F (R59, GK1) -/

/-- The group and the selector put together, as the obligations write the words. -/
theorem packXNN_groupF_toNat (x : Reg) (nn : Byte) : (packXNN 0xF x nn).toNat = 0xF000 + nn.toNat + x.val * 0x100 := by
  rw [packXNN_toNat (by decide)]
  omega

/-! ### Instructions that give `I` a value -/

/-- What an instruction does that only gives `I` a value, here as a number, and goes on (R91 to R93). -/
theorem exec_of_setIndex {i : Instr} {s : State} {a : Word} {n : Nat} (h : exec i s = .next (s.setIndex a).advance)
    (ha : a.toNat = n) :
    ∃ t, exec i s = .next t ∧ t.index.toNat = n ∧ t.pc = s.pc + 2 ∧ Unchanged [.index, .pc] s t :=
  ⟨_, h, ha, rfl, Keeps.unchanged (keeps_iff.mpr (by simp)) rfl⟩

/-- Five times a byte is at most 1275, so the glyph address does not wrap (R93, D17). -/
theorem fontAddr_toNat (b : Byte) : (fontAddr b).toNat = 5 * b.toNat := by
  have := b.isLt
  simp only [fontAddr, Config.fontBase, Config.fontGlyphBytes, Config.iWidth, BitVec.toNat_ofNat]
  omega

/-! ### The decimal digits in memory (R94) -/

/-- The three digits at their addresses, as numbers, and every other byte as it was. -/
theorem State.storeBytes_bcdDigits_readByte (s : State) (a : Nat) (b : Byte) (a' : Nat) :
    ((s.storeBytes a (bcdDigits b)).readByte a').toNat =
      if a' = a then b.toNat / 100
      else if a' = a + 1 then b.toNat / 10 % 10
      else if a' = a + 2 then b.toNat % 10 else (s.readByte a').toNat := by
  have := b.isLt
  by_cases inside : a ≤ a' ∧ a' < a + 3
  · obtain rfl | rfl | rfl : a' = a ∨ a' = a + 1 ∨ a' = a + 2 := by omega
    all_goals
      simp (disch := omega) [State.storeBytes_readByte, bcdDigits, Nat.mod_eq_of_lt]
  · rw [s.storeBytes_frame a _ a' (by rw [bcdDigits_length]; omega), if_neg (by omega), if_neg (by omega),
      if_neg (by omega)]

/-! ### In range: the effect -/

theorem exec_ldBX_inside {x : Reg} {s : State} (h : s.baseAddr + 2 < 4096) :
    exec (.ldBX x) s = .next (s.storeBytes s.baseAddr (bcdDigits (s.reg x))).advance :=
  execLdBX_next.mpr (.inl ⟨s.rangeFault_inside h, rfl⟩)

theorem exec_ldXI_inside {x : Reg} {s : State} (h : s.baseAddr + x.val < 4096) :
    exec (.ldXI x) s = .next ((s.loadRegs x s.baseAddr).setIndex (s.indexPast x)).advance :=
  execLdXI_next.mpr (.inl ⟨s.rangeFault_inside h, rfl⟩)

/-! ### Out of range: the fault, with the lowest failing address (D5) -/

/-- The fault of an instruction whose address range is not wholly below 4096 (R90, R116). -/
def State.accessFault (s : State) (i : Instr) : State :=
  s.raise .memoryOutOfBounds (some (encode i)) (some (max s.index.toNat 4096))

theorem exec_ldBX_outside {x : Reg} {s : State} (h : s.baseAddr + 2 ≥ 4096) :
    exec (.ldBX x) s = .next (s.accessFault (.ldBX x)) :=
  execLdBX_next.mpr (.inr ⟨_, s.rangeFault_outside (by decide) h, rfl⟩)

theorem exec_ldIX_outside {x : Reg} {s : State} (h : s.baseAddr + x.val ≥ 4096) :
    exec (.ldIX x) s = .next (s.accessFault (.ldIX x)) :=
  execLdIX_next.mpr (.inr ⟨_, s.rangeFault_outside (Nat.succ_pos _) h, rfl⟩)

theorem exec_ldXI_outside {x : Reg} {s : State} (h : s.baseAddr + x.val ≥ 4096) :
    exec (.ldXI x) s = .next (s.accessFault (.ldXI x)) :=
  execLdXI_next.mpr (.inr ⟨_, s.rangeFault_outside (Nat.succ_pos _) h, rfl⟩)

/-! ### The record of a raised fault -/

/-- The instruction can raise this kind of fault (R118). -/
def CanRaise (i : Instr) (kind : FaultKind) : Prop :=
  (i = .ret ∧ kind = .stackUnderflow) ∨
    (∃ nnn, i = .callNNN nnn ∧ kind = .stackOverflow) ∨
    (∃ x, (i = .skpX x ∨ i = .sknpX x) ∧ kind = .keyIndexOutOfRange) ∨
    (∃ x, (i = .ldBX x ∨ i = .ldIX x ∨ i = .ldXI x) ∧ kind = .memoryOutOfBounds) ∨
    ∃ x y n, i = .drwXYN x y n ∧ kind = .memoryOutOfBounds

/-- Raising a fault writes the run status only, and the record holds what was raised, at the instruction's address (R116). -/
theorem precise_of_raise {i : Instr} {s : State} {kind : FaultKind} {info : Option Nat} {rec : FaultRecord}
    (can : CanRaise i kind) (h : (s.raise kind (some (encode i)) info).rs = .faulted rec) :
    s.raise kind (some (encode i)) info = { s with rs := .faulted rec } ∧ rec.pc = s.pc ∧
      rec.opcode = some (encode i) ∧ CanRaise i rec.kind := by
  obtain rfl := RunStatus.faulted.inj h
  exact ⟨rfl, rfl, rfl, can⟩

end Sys2Proof.Machine

/-! PROOFS. The statements about the index register and memory, and that faults are precise. -/

namespace Sys2Proof.Machine

/-- Settles O26: by whether `I + 2` is below 4096; the digits are read back by `State.storeBytes_bcdDigits_readByte`. -/
theorem bcdStoresThreeDigits : Obligations.BcdStoresThreeDigits := by
  unfold Obligations.BcdStoresThreeDigits
  refine ⟨fun x => encodedAs_of_toNat (packXNN_groupF_toNat x Sel.ldBX), fun x s inside => ?_, fun x s outside => ?_⟩
  · exact ⟨_, exec_ldBX_inside inside, s.storeBytes_bcdDigits_readByte _ _, by simp,
      Keeps.unchanged (keeps_iff.mpr (by simp)) (by simp)⟩
  · exact ⟨_, exec_ldBX_outside outside, rfl, s.raise_unchanged _ _ _⟩

/-- Settles O27: by whether `I + x` is below 4096; the stored bytes by `State.storeBytes_regsUpTo_readByte`, the others by
`State.storeBytes_frame`. -/
theorem blockStoreWritesAndAdvances : Obligations.BlockStoreWritesAndAdvances := by
  unfold Obligations.BlockStoreWritesAndAdvances
  refine ⟨fun x => encodedAs_of_toNat (packXNN_groupF_toNat x Sel.ldIX), fun x s inside => ?_, fun x s outside => ?_⟩
  · refine ⟨_, exec_ldIX_inside inside, fun k hk => s.storeBytes_regsUpTo_readByte hk _, fun a ha => ?_,
      BitVec.toNat_ofNat _ _, by simp, Keeps.unchanged (keeps_iff.mpr (by simp)) (by simp)⟩
    exact s.storeBytes_frame _ _ a (by rw [State.regsUpTo_length]; omega)
  · exact ⟨_, exec_ldIX_outside outside, rfl, s.raise_unchanged _ _ _⟩

/-- Settles O28: by whether `I + x` is below 4096; the registers by `State.loadRegs_reg`. -/
theorem blockLoadReadsAndAdvances : Obligations.BlockLoadReadsAndAdvances := by
  unfold Obligations.BlockLoadReadsAndAdvances
  refine ⟨fun x => encodedAs_of_toNat (packXNN_groupF_toNat x Sel.ldXI), fun x s inside => ?_, fun x s outside => ?_⟩
  · exact ⟨_, exec_ldXI_inside inside, s.loadRegs_reg x _, BitVec.toNat_ofNat _ _, rfl,
      Keeps.unchanged (keeps_iff.mpr (by simp)) rfl⟩
  · exact ⟨_, exec_ldXI_outside outside, rfl, s.raise_unchanged _ _ _⟩

/-- Settles O46: an instruction's effect leaves the block running or waiting, so what left it faulted is the instruction's
fault (`precise_of_raise`). -/
theorem faultsArePrecise : Obligations.FaultsArePrecise := by
  unfold Obligations.FaultsArePrecise
  intro i s t rec running h faulted
  cases i with
  | ret =>
    obtain ⟨a, u, hu, rfl⟩ | ⟨-, rfl⟩ := execRet_next.mp h
    · obtain ⟨-, -, rfl⟩ := State.pop_cases hu
      simp [running] at faulted
    · exact precise_of_raise (.inl ⟨rfl, rfl⟩) faulted
  | callNNN nnn =>
    obtain ⟨u, hu, rfl⟩ | ⟨-, rfl⟩ := execCallNNN_next.mp h
    · obtain ⟨lt, rfl⟩ := State.push_cases hu
      simp [running] at faulted
    · exact precise_of_raise (.inr (.inl ⟨nnn, rfl, rfl⟩)) faulted
  | skpX x =>
    obtain ⟨k, -, rfl⟩ | ⟨-, rfl⟩ := execSkpX_next.mp h
    · simp [running] at faulted
    · exact precise_of_raise (.inr (.inr (.inl ⟨x, .inl rfl, rfl⟩))) faulted
  | sknpX x =>
    obtain ⟨k, -, rfl⟩ | ⟨-, rfl⟩ := execSknpX_next.mp h
    · simp [running] at faulted
    · exact precise_of_raise (.inr (.inr (.inl ⟨x, .inr rfl, rfl⟩))) faulted
  | ldBX x =>
    obtain ⟨-, rfl⟩ | ⟨a, -, rfl⟩ := execLdBX_next.mp h
    · simp [running] at faulted
    · exact precise_of_raise (.inr (.inr (.inr (.inl ⟨x, .inl rfl, rfl⟩)))) faulted
  | ldIX x =>
    obtain ⟨-, rfl⟩ | ⟨a, -, rfl⟩ := execLdIX_next.mp h
    · simp [running] at faulted
    · exact precise_of_raise (.inr (.inr (.inr (.inl ⟨x, .inr (.inl rfl), rfl⟩)))) faulted
  | ldXI x =>
    obtain ⟨-, rfl⟩ | ⟨a, -, rfl⟩ := execLdXI_next.mp h
    · simp [running] at faulted
    · exact precise_of_raise (.inr (.inr (.inr (.inl ⟨x, .inr (.inr rfl), rfl⟩)))) faulted
  | drwXYN x y n =>
    obtain ⟨-, rfl⟩ | ⟨a, -, rfl⟩ := execDrwXYN_next.mp h
    · simp [running] at faulted
    · exact precise_of_raise (.inr (.inr (.inr (.inr ⟨x, y, n, rfl, rfl⟩)))) faulted
  | ldXK x =>
    obtain rfl := Host.Outcome.next.inj h
    cases faulted
  | _ =>
    have kept : t.rs = s.rs := exec_keeps h .rs (by simp [mayWrite])
    simp [kept, running] at faulted

/-- Settles O23: the operand is `I`, as a number (`wordOfAddr_toNat`). -/
theorem loadIndex : Obligations.LoadIndex := fun nnn _ =>
  ⟨encodedAs_of_toNat (packNNN_toNat (by decide) nnn), exec_of_setIndex rfl (wordOfAddr_toNat nnn)⟩

/-- Settles O24: the word sum is the sum modulo 65536, of `I` and the byte as a number (`wordOfByte_toNat`). -/
theorem addToIndexWraps : Obligations.AddToIndexWraps := by
  unfold Obligations.AddToIndexWraps
  intro x s
  refine ⟨encodedAs_of_toNat (packXNN_groupF_toNat x Sel.addIX), exec_of_setIndex rfl ?_⟩
  rw [BitVec.toNat_add, wordOfByte_toNat]

/-- Settles O25: the address does not wrap (`fontAddr_toNat`). -/
theorem fontAddressIsFiveTimes : Obligations.FontAddressIsFiveTimes := fun x s =>
  ⟨encodedAs_of_toNat (packXNN_groupF_toNat x Sel.ldFX), exec_of_setIndex rfl (fontAddr_toNat (s.reg x))⟩

end Sys2Proof.Machine

/-! SUPPORT. DXYN in the statements' terms: the sprite's rows as the bits of `State.spriteLit`, and the effect or the fault by
whether the sprite's bytes are in bounds (R99). -/

namespace Sys2Proof.Machine

/-! ### The drawing, cell by cell (R97, R99) -/

/-- The set bits of the sprite's bytes fall on the cells of the spec's own reading. -/
theorem rowsLit_readBytes (s : State) (x y : Reg) (n : BitVec 4) (px : Fin 64) (py : Fin 32) :
    rowsLit (s.reg x).toNat (s.reg y).toNat (s.readBytes s.baseAddr n.toNat) px py ↔ s.spriteLit x y n px py := by
  simp only [rowsLit, State.spriteLit, spriteBit, State.readBytes_length, State.readBytes_get, Fin.ext_iff, wrapX_val,
    wrapY_val, exists_prop]

/-- A sprite has at most 15 rows, so `drawRows_spec` applies to the drawing. -/
theorem State.readBytes_length_lt (s : State) (a : Nat) (n : BitVec 4) : (s.readBytes a n.toNat).length < 32 := by
  rw [State.readBytes_length]
  omega

theorem State.drawing_cell (s : State) (x y : Reg) (n : BitVec 4) (px : Fin 64) (py : Fin 32) :
    (s.drawing x y n).fb.cell px py = true ↔ (s.pixel px py = true ↔ ¬ s.spriteLit x y n px py) := by
  rw [← rowsLit_readBytes]
  exact (drawRows_spec _ _ _ _ (s.readBytes_length_lt _ n)).1 px py

theorem State.drawing_collision (s : State) (x y : Reg) (n : BitVec 4) :
    (s.drawing x y n).collision = true ↔ ∃ px py, s.pixel px py = true ∧ s.spriteLit x y n px py := by
  simp only [← rowsLit_readBytes]
  exact (drawRows_spec _ _ _ _ (s.readBytes_length_lt _ n)).2.trans (by simp [State.pixel])

/-! ### The state after a draw -/

/-- The effect of DXYN in range (R99). -/
def State.drawn (s : State) (x y : Reg) (n : BitVec 4) : State :=
  ((s.setFrame (s.drawing x y n).fb).setFlag (s.drawing x y n).collision).pulseRefresh.advance

theorem State.drawn_pixel (s : State) (x y : Reg) (n : BitVec 4) (px : Fin 64) (py : Fin 32) :
    (s.drawn x y n).pixel px py = true ↔ (s.pixel px py = true ↔ ¬ s.spriteLit x y n px py) :=
  s.drawing_cell x y n px py

theorem State.drawn_reg (s : State) (x y : Reg) (n : BitVec 4) (r : Reg) :
    (s.drawn x y n).reg r = if r = 0xF then flagByte (s.drawing x y n).collision else s.reg r :=
  (s.setFrame _).setFlag_reg _ r

theorem flagByte_eq_one {c : Bool} : flagByte c = 1 ↔ c = true := by
  cases c <;> decide

theorem flagByte_eq_zero {c : Bool} : flagByte c = 0 ↔ ¬ c = true := by
  cases c <;> decide

theorem State.drawn_flag_eq_one (s : State) (x y : Reg) (n : BitVec 4) :
    (s.drawn x y n).reg 0xF = 1 ↔ ∃ px py, s.pixel px py = true ∧ s.spriteLit x y n px py := by
  rw [State.drawn_reg, if_pos rfl, flagByte_eq_one, State.drawing_collision]

theorem State.drawn_flag_eq_zero (s : State) (x y : Reg) (n : BitVec 4) :
    (s.drawn x y n).reg 0xF = 0 ↔ ¬ ∃ px py, s.pixel px py = true ∧ s.spriteLit x y n px py := by
  rw [State.drawn_reg, if_pos rfl, flagByte_eq_zero, State.drawing_collision]

/-- A draw leaves the sprite where it was: only the coordinates could change, and only in VF. -/
theorem State.drawn_spriteLit (s : State) {x y : Reg} (n : BitVec 4) (hx : x ≠ 0xF) (hy : y ≠ 0xF) (px : Fin 64)
    (py : Fin 32) : (s.drawn x y n).spriteLit x y n px py ↔ s.spriteLit x y n px py := by
  simp only [State.spriteLit, State.drawn_reg, if_neg hx, if_neg hy]
  rfl

/-! ### By whether the sprite's bytes are in bounds (R99, D5, D20) -/

/-- A sprite without rows reads no byte, so it is in bounds wherever `I` points (D20). -/
theorem State.rangeFault_zero (s : State) : s.rangeFault 0 = none := by
  simp [State.rangeFault]

theorem exec_drwXYN_inside {x y : Reg} {n : BitVec 4} {s : State} (h : n.toNat = 0 ∨ s.baseAddr + n.toNat - 1 < 4096) :
    exec (.drwXYN x y n) s = .next (s.drawn x y n) := by
  refine execDrwXYN_next.mpr (.inl ⟨?_, rfl⟩)
  by_cases noRows : n.toNat = 0
  · rw [noRows, State.rangeFault_zero]
  · exact s.rangeFault_inside (by simp only [Config.memSize]; omega)

theorem exec_drwXYN_outside {x y : Reg} {n : BitVec 4} {s : State} (hn : 0 < n.toNat)
    (h : s.baseAddr + n.toNat - 1 ≥ 4096) : exec (.drwXYN x y n) s = .next (s.accessFault (.drwXYN x y n)) :=
  execDrwXYN_next.mpr (.inr ⟨_, s.rangeFault_outside hn (by simp only [Config.memSize]; omega), rfl⟩)

end Sys2Proof.Machine

/-! PROOFS. The statements about the display. -/

namespace Sys2Proof.Machine

/-- Settles O31: by whether the sprite's bytes are in bounds; the cells by `State.drawn_pixel`, VF by `State.drawn_flag_eq_one`
and `State.drawn_flag_eq_zero`. -/
theorem drawXorsTheSprite : Obligations.DrawXorsTheSprite := by
  unfold Obligations.DrawXorsTheSprite
  refine ⟨fun x y n => encodedAs_of_toNat (packXYN_toNat (by decide) x y n), fun x y n s inside => ?_,
    fun x y n s rows outside => ?_⟩
  · refine ⟨_, exec_drwXYN_inside inside, s.drawn_pixel x y n, (s.drawn_flag_eq_one x y n).mpr,
      (s.drawn_flag_eq_zero x y n).mpr, fun r hr => ?_, rfl, rfl,
      Keeps.unchanged (keeps_iff.mpr (by simp [State.drawn])) rfl⟩
    rw [State.drawn_reg, if_neg hr]
  · exact ⟨_, exec_drwXYN_outside rows outside, rfl, s.raise_unchanged _ _ _⟩

/-- Settles O32: the second draw meets the same sprite (`State.drawn_spriteLit`), so it flips the same cells back, and a cell
that it finds lit under the sprite is one that was unlit before the first. -/
theorem drawTwiceRestoresTheDisplay : Obligations.DrawTwiceRestoresTheDisplay := by
  unfold Obligations.DrawTwiceRestoresTheDisplay
  intro x y n s t u hx hy inside first second
  have inBounds : n.toNat = 0 ∨ s.baseAddr + n.toNat - 1 < 4096 := by omega
  obtain rfl := Host.Outcome.next.inj ((exec_drwXYN_inside inBounds).symm.trans first)
  obtain rfl := Host.Outcome.next.inj ((exec_drwXYN_inside (s := s.drawn x y n) inBounds).symm.trans second)
  refine ⟨fun px py => ?_, ?_, ?_⟩
  · rw [Bool.eq_iff_iff, State.drawn_pixel, State.drawn_pixel, s.drawn_spriteLit n hx hy]
    tauto
  · rw [State.drawn_flag_eq_one, State.drawn_flag_eq_zero]
    exact em _
  · have unlit : ∀ px py, (s.drawn x y n).pixel px py = true ∧ s.spriteLit x y n px py ↔
        s.pixel px py = false ∧ s.spriteLit x y n px py := fun px py =>
      and_congr_left fun lit => by
        rw [State.drawn_pixel, iff_false_right (not_not_intro lit), Bool.not_eq_true]
    simp only [State.drawn_flag_eq_one, s.drawn_spriteLit n hx hy, unlit]

/-- Settles O30: the cleared frame is unlit (`Frame.clear_cell`), and the rest is the instruction's own frame (`mayWrite`). -/
theorem clsUnlightsEveryCell : Obligations.ClsUnlightsEveryCell :=
  ⟨encodedAs_of_toNat (packNNN_toNat (by decide) Sel.cls), fun s =>
    ⟨_, rfl, Frame.clear_cell, rfl, instructionsWriteOnlyTheirParts .cls s _ rfl⟩⟩

end Sys2Proof.Machine

/-! SUPPORT. The keypad and timer instructions: the words of group E, SKP_X and SKNP_X by whether `V[x]` names a key (R101), the
timers and the tone as numbers, and a step of the key wait by its event (R113). -/

namespace Sys2Proof.Machine

/-! ### Words of group E (R58) -/

/-- The group and the selector put together, as the obligations write the words. -/
theorem packXNN_groupE_toNat (x : Reg) (nn : Byte) : (packXNN 0xE x nn).toNat = 0xE000 + nn.toNat + x.val * 0x100 := by
  rw [packXNN_toNat (by decide)]
  omega

/-! ### By whether `V[x]` names a key (R101, D22) -/

theorem State.keyOf_eq_some {s : State} {x : Reg} {k : Key} (h : (s.reg x).toNat = k.val) : s.keyOf x = some k := by
  rw [s.keyOf_of_lt x (h ▸ k.isLt)]
  exact congrArg some (Fin.ext h)

theorem exec_skpX_of_key {x : Reg} {k : Key} {s : State} (h : (s.reg x).toNat = k.val) :
    exec (.skpX x) s = .next (s.skipIf (s.key k)) :=
  execSkpX_next.mpr (.inl ⟨k, State.keyOf_eq_some h, rfl⟩)

theorem exec_sknpX_of_key {x : Reg} {k : Key} {s : State} (h : (s.reg x).toNat = k.val) :
    exec (.sknpX x) s = .next (s.skipIf (!s.key k)) :=
  execSknpX_next.mpr (.inl ⟨k, State.keyOf_eq_some h, rfl⟩)

/-- The fault of an instruction whose `V[x]` names no key (R101, R116). -/
def State.keyFault (s : State) (i : Instr) (x : Reg) : State :=
  s.raise .keyIndexOutOfRange (some (encode i)) (some (s.reg x).toNat)

theorem exec_skpX_noKey {x : Reg} {s : State} (h : (s.reg x).toNat > 15) :
    exec (.skpX x) s = .next (s.keyFault (.skpX x) x) :=
  execSkpX_next.mpr (.inr ⟨s.keyOf_none x h, rfl⟩)

theorem exec_sknpX_noKey {x : Reg} {s : State} (h : (s.reg x).toNat > 15) :
    exec (.sknpX x) s = .next (s.keyFault (.sknpX x) x) :=
  execSknpX_next.mpr (.inr ⟨s.keyOf_none x h, rfl⟩)

/-- A skip leaves everything but `PC` (R67). -/
theorem State.skipIf_unchanged (s : State) (c : Bool) : Unchanged [.pc] s (s.skipIf c) :=
  s.setPc_unchanged _

/-! ### The tone, and the timers after `Complete()` (R112, R114, R128) -/

theorem State.tone_eq_true (s : State) : s.tone = true ↔ s.st.toNat ≠ 0 :=
  bne_iff_ne.trans (not_congr BitVec.toNat_eq)

theorem State.complete_dt_toNat (s : State) :
    s.complete.dt.toNat = if s.complete.tc = 0 then s.dt.toNat - 1 else s.dt.toNat := by
  rw [State.complete_dt, State.complete_tc, apply_ite BitVec.toNat, decTimer_toNat]

theorem State.complete_st_toNat (s : State) :
    s.complete.st.toNat = if s.complete.tc = 0 then s.st.toNat - 1 else s.st.toNat := by
  rw [State.complete_st, State.complete_tc, apply_ite BitVec.toNat, decTimer_toNat]

/-! ### A step of the key wait (R113) -/

theorem step_poll_waiting {s : State} {es : List HostEvent} {x : Reg} (hin : s.nextInput = .poll es)
    (hr : s.rs = .awaitingKey x) (started : ∀ len, s.boot ≠ .outOfSpace len) :
    step s = .next (waitingCycle x es s.beginCycle) :=
  (step_poll hin).trans (loopCycle_waiting es started hr)

/-- The key as a number in `V[x]`, the other registers as they were (GK6). -/
theorem State.completeKey_reg_toNat (s : State) (x : Reg) (k : Key) (r : Reg) :
    ((s.completeKey x k).reg r).toNat = if r = x then k.val else (s.reg r).toNat := by
  rw [State.completeKey_reg, apply_ite BitVec.toNat, byteOfKey_toNat]

end Sys2Proof.Machine

/-! PROOFS. The statements about the keypad and the timers. -/

namespace Sys2Proof.Machine

/-- Settles O35: a waiting step is `waitingCycle` after the input is taken (`step_poll_waiting`), which on a press is the
completion of FX0A, on a release one key's flag, and on a close the run status. -/
theorem ldXKWaitsForAPress : Obligations.LdXKWaitsForAPress := by
  unfold Obligations.LdXKWaitsForAPress
  refine ⟨fun x => encodedAs_of_toNat (packXNN_groupF_toNat x Sel.ldXK),
    fun x s => ⟨_, rfl, rfl, instructionsWriteOnlyTheirParts (.ldXK x) s _ rfl⟩,
    fun x k s waits press started => ?_, fun x s waits started noPress => ?_, fun x s es waits started close => ?_⟩
  · exact ⟨s.beginCycle.completeKey x k, step_poll_waiting press waits started, s.beginCycle.completeKey_key x k,
      s.beginCycle.completeKey_reg_toNat x k, rfl, rfl, rfl, State.complete_dt_toNat _, State.complete_st_toNat _,
      rfl, rfl, rfl, Keeps.unchanged (keeps_iff.mpr (by simp [State.completeKey])) rfl⟩
  · obtain silent | ⟨k, release⟩ := noPress
    · exact ⟨s.beginCycle, step_poll_waiting silent waits started, rfl, rfl, rfl,
        Keeps.unchanged (keeps_iff.mpr (by simp)) rfl⟩
    · exact ⟨s.beginCycle.setKey k false, step_poll_waiting release waits started, rfl, rfl, rfl,
        Keeps.unchanged (keeps_iff.mpr (by simp)) rfl⟩
  · exact ⟨{ s.beginCycle with rs := .quit }, step_poll_waiting close waits started, rfl, rfl, rfl, rfl,
      Keeps.unchanged (keeps_iff.mpr (by simp)) rfl⟩

/-- Settles O33: by whether `V[x]` names a key, `exec_skpX_of_key` or `exec_skpX_noKey`. -/
theorem skipIfKeyPressed : Obligations.SkipIfKeyPressed := by
  unfold Obligations.SkipIfKeyPressed
  refine ⟨fun x => encodedAs_of_toNat (packXNN_groupE_toNat x Sel.skpX), fun x k s hk => ?_, fun x s noKey => ?_⟩
  · exact ⟨_, exec_skpX_of_key hk, s.skipIf_pc _, s.skipIf_unchanged _⟩
  · exact ⟨_, exec_skpX_noKey noKey, rfl, s.raise_unchanged _ _ _⟩

/-- Settles O34: by whether `V[x]` names a key, `exec_sknpX_of_key` or `exec_sknpX_noKey`. -/
theorem skipIfKeyNotPressed : Obligations.SkipIfKeyNotPressed := by
  unfold Obligations.SkipIfKeyNotPressed
  refine ⟨fun x => encodedAs_of_toNat (packXNN_groupE_toNat x Sel.sknpX), fun x k s hk => ?_, fun x s noKey => ?_⟩
  · refine ⟨_, exec_sknpX_of_key hk, ?_, s.skipIf_unchanged _⟩
    simp only [State.skipIf_pc, Bool.not_eq_true']
  · exact ⟨_, exec_sknpX_noKey noKey, rfl, s.raise_unchanged _ _ _⟩

/-- Settles O36: each is a move and an advance; LD_XDT writes one register, and the tone is `ST` (`State.tone_eq_true`). -/
theorem timerMoves : Obligations.TimerMoves := fun x s =>
  ⟨encodedAs_of_toNat (packXNN_groupF_toNat x Sel.ldXDT), encodedAs_of_toNat (packXNN_groupF_toNat x Sel.ldDTX),
    encodedAs_of_toNat (packXNN_groupF_toNat x Sel.ldSTX), exec_of_writeResult rfl,
    ⟨_, rfl, rfl, rfl, instructionsWriteOnlyTheirParts (.ldDTX x) s _ rfl⟩,
    ⟨_, rfl, rfl, State.tone_eq_true _, rfl, instructionsWriteOnlyTheirParts (.ldSTX x) s _ rfl⟩⟩

end Sys2Proof.Machine

/-! SUPPORT. The cycle by its cases: the last event about a key (R109, R110), several runs of `Complete()` (R112, R114), a close
at the poll (R110), the key wait (R113), the final states (R108, R117, R119), a step that runs an instruction (R111), and a
load (R133). -/

namespace Sys2Proof.Machine

/-! ### The poll (R109, R110) -/

/-- What an event other than a close does to the keypad, as `pollKeys` does it. -/
def HostEvent.applyTo (keys : Vector Bool 16) : HostEvent → Vector Bool 16
  | .press k => keys.set k true
  | .release k => keys.set k false
  | .close => keys

theorem pollKeys_cons {e : HostEvent} (h : e ≠ .close) (rest : List HostEvent) (keys : Vector Bool 16) :
    pollKeys (e :: rest) keys = pollKeys rest (e.applyTo keys) := by
  cases e with
  | press | release => rfl
  | close => exact absurd rfl h

theorem HostEvent.applyTo_key (e : HostEvent) (keys : Vector Bool 16) (k : Key) :
    (e.applyTo keys)[k] = (e.setsKey k).getD keys[k] := by
  cases e with
  | press j | release j =>
    by_cases h : j = k <;> simp [HostEvent.applyTo, HostEvent.setsKey, Fin.val_inj, h]
  | close => rfl

/-- What the last event about key `k` before a close says of it, if there is one (R109, R110). -/
def lastSaid (k : Key) (es : List HostEvent) : Option Bool :=
  (es.takeWhile (· != .close)).reverse.findSome? (HostEvent.setsKey k)

theorem lastSaid_close (k : Key) (rest : List HostEvent) : lastSaid k (.close :: rest) = none := rfl

/-- A later event about the key overrides an earlier one. -/
theorem lastSaid_cons {e : HostEvent} (h : e ≠ .close) (k : Key) (rest : List HostEvent) :
    lastSaid k (e :: rest) = (lastSaid k rest).or (e.setsKey k) := by
  simp [lastSaid, h, List.findSome?_append]

theorem pollKeys_key (es : List HostEvent) (keys : Vector Bool 16) (k : Key) :
    (pollKeys es keys)[k] = (lastSaid k es).getD keys[k] := by
  induction es generalizing keys with
  | nil => rfl
  | cons e rest ih =>
    by_cases h : e = .close
    · rw [h, lastSaid_close]
      rfl
    · rw [pollKeys_cons h, ih, HostEvent.applyTo_key, lastSaid_cons h, Option.getD_or]

/-! ### Several runs of `Complete()` (R112, R114) -/

theorem State.complete_unchanged (s : State) : Unchanged [.tc, .dt, .st] s s.complete :=
  Keeps.unchanged (keeps_iff.mpr (by simp)) rfl

/-- While the count stays short of the divisor, a run of `Complete()` is one count more. -/
theorem State.complete_of_lt {s : State} (h : s.tc + 1 < s.params.timerDivisor) :
    s.complete = { s with tc := s.tc + 1 } := by
  have counted : nextTc s.params.timerDivisor s.tc = s.tc + 1 := Nat.mod_eq_of_lt h
  simp [State.complete, counted]

/-- Runs of `Complete()` that stay short of the divisor only count. -/
theorem State.complete_iterate_of_lt {s : State} {k : Nat} (h : s.tc + k < s.params.timerDivisor) :
    State.complete^[k] s = { s with tc := s.tc + k } := by
  induction k with
  | zero => rfl
  | succ k ih =>
    rw [Function.iterate_succ_apply', ih (by omega)]
    exact State.complete_of_lt h

/-- The run that brings the count up to the divisor starts it again at 0. -/
theorem State.complete_tc_eq_zero {s : State} (h : s.tc + 1 = s.params.timerDivisor) : s.complete.tc = 0 := by
  rw [State.complete_tc, nextTc, h, Nat.mod_self]

/-! ### A close at the poll, and in a key wait (R110) -/

theorem step_poll_close {s : State} {es : List HostEvent} (hin : s.nextInput = .poll es) (hc : closes es = true)
    (hr : s.rs = .running) (started : ∀ len, s.boot ≠ .outOfSpace len) :
    step s = .next { s.polled es with rs := .quit } := by
  rw [step_poll hin, loopCycle_running es started hr, hc]
  rfl

/-- A close in a key wait changes the run status, besides what every iteration of the loop does. -/
theorem State.beginCycle_quit_unchanged (s : State) :
    Unchanged [.rs, .refresh, .boot, .inputs] s { s.beginCycle with rs := .quit } :=
  Keeps.unchanged (keeps_iff.mpr (by simp)) rfl

/-! ### The key wait (R113) -/

/-- The completion of FX0A before its `Complete()` (R104, R113). -/
def State.resumed (s : State) (x : Reg) (k : Key) : State :=
  { ((s.setKey k true).setReg x (byteOfKey k)).advance with rs := .running }

theorem State.completeKey_eq (s : State) (x : Reg) (k : Key) : s.completeKey x k = (s.resumed x k).complete := rfl

/-! ### The final states (R108, R117, R119) -/

theorem step_poll_outOfSpace {s : State} {es : List HostEvent} {len : Nat} (hin : s.nextInput = .poll es)
    (hb : s.boot = .outOfSpace len) : step s = .fault (.runNotStarted len) := by
  rw [step_poll hin, loopCycle, hb]

theorem step_poll_quit {s : State} {es : List HostEvent} (hin : s.nextInput = .poll es)
    (started : ∀ len, s.boot ≠ .outOfSpace len) (hr : s.rs = .quit) : step s = .fault .runQuit := by
  rw [step_poll hin, loopCycle_started es started, hr]

theorem step_poll_faulted {s : State} {es : List HostEvent} {rec : FaultRecord} (hin : s.nextInput = .poll es)
    (started : ∀ len, s.boot ≠ .outOfSpace len) (hr : s.rs = .faulted rec) : step s = .fault (.runFaulted rec) := by
  rw [step_poll hin, loopCycle_started es started, hr]

/-! ### A step that runs an instruction (R111) -/

/-- The fetched word decodes to what the two bytes at `PC` decode to (R37, R50). -/
theorem decodeWord_fetchWord_of_decodeBytes {s : State} {i : Instr}
    (h : decodeBytes [s.readByte s.pc.toNat, s.readByte (s.pc.toNat + 1)] = .ok (i, [])) :
    decodeWord s.fetchWord = .ok i := by
  rw [decodeBytes_cons] at h
  unfold State.fetchWord
  cases hd : decodeWord (mergeBytes (s.readByte s.pc.toNat) (s.readByte (s.pc.toNat + 1))) with
  | ok j =>
    rw [hd] at h
    cases h
    rfl
  | error e =>
    rw [hd] at h
    cases h

/-! ### Loads (R133, R134) -/

theorem step_load_fresh {s : State} {image : List Byte} (hin : s.nextInput = .load image) (hb : s.boot = .fresh) :
    step s = .next (s.takeInput.loadProgram image) := by
  rw [step_load hin, if_pos hb]

theorem step_load_refused {s : State} {image : List Byte} (hin : s.nextInput = .load image) (hb : s.boot ≠ .fresh) :
    step s = .refused .loadNotAfterReset := by
  rw [step_load hin, if_neg hb]

/-- A load that fits leaves memory as a block store of the image at 0x200 does. -/
theorem State.loadProgram_readByte (s : State) {image : List Byte} (fits : image.length ≤ 3584) (a : Nat) :
    (s.loadProgram image).readByte a = (s.storeBytes 0x200 image).readByte a := by
  rw [State.loadProgram_fits s fits, State.readByte, State.readByte, State.storeBytes_params]

end Sys2Proof.Machine

/-! PROOFS. The statements about the execution cycle, and about loading a program. -/

namespace Sys2Proof.Machine

/-- Settles O39: by induction on the events, each of which overrides the ones before it (`pollKeys_key`). -/
theorem pollAppliesEventsInOrder : Obligations.PollAppliesEventsInOrder :=
  pollKeys_key

/-- Settles O44: below the divisor the runs only count (`State.complete_iterate_of_lt`), and the run after those is the one
that brings the count back to 0. -/
theorem oneDecrementAPeriod : Obligations.OneDecrementAPeriod := by
  unfold Obligations.OneDecrementAPeriod
  intro s k hpos htc hle
  obtain hlt | rfl := Nat.lt_or_eq_of_le hle
  · rw [State.complete_iterate_of_lt (by omega)]
    simp [htc, hlt.ne]
  · obtain ⟨n, hn⟩ := Nat.exists_eq_add_one_of_ne_zero hpos.ne'
    have before : State.complete^[n] s = { s with tc := n } := by
      rw [State.complete_iterate_of_lt (by omega), htc, Nat.zero_add]
    have wraps : State.complete^[s.params.timerDivisor] s = State.complete { s with tc := n } := by
      rw [hn, Function.iterate_succ_apply', before]
    have zero : (State.complete { s with tc := n }).tc = 0 := State.complete_tc_eq_zero hn.symm
    rw [wraps, State.complete_dt_toNat, State.complete_st_toNat, zero]
    simp

/-- Settles O57: by whether the window is open and the image fits; the bytes are those of a block store
(`State.loadProgram_readByte`), and a failed load leaves no step (`step_poll_outOfSpace`). -/
theorem loadCopiesTheImage : Obligations.LoadCopiesTheImage := by
  unfold Obligations.LoadCopiesTheImage
  refine ⟨fun s image hin hb fits => ?_, fun s image hin hb long => ?_, fun s image hin hb => step_load_refused hin hb⟩
  · refine ⟨_, step_load_fresh hin hb, fun k hk => ?_, fun a ha => ?_, ?_⟩
    · rw [State.loadProgram_readByte _ fits, State.storeBytes_readByte, dif_pos (by omega)]
      simp only [Nat.add_sub_cancel_left]
    · rw [State.loadProgram_readByte _ fits, State.storeBytes_frame _ _ _ _ ha, State.takeInput_readByte]
    · rw [State.loadProgram_fits _ fits]
      exact ⟨rfl, rfl, Keeps.unchanged (keeps_iff.mpr (by simp)) rfl⟩
  · refine ⟨_, step_load_fresh hin hb, ?_⟩
    rw [State.loadProgram_tooLong _ long]
    exact ⟨rfl, rfl, Keeps.unchanged (keeps_iff.mpr (by simp)) rfl, fun es hpoll => step_poll_outOfSpace hpoll rfl⟩

/-- Settles O37: the step fetches in the polled state, whose `PC` and memory are those before it. -/
theorem stepRunsTheDecodedInstruction : Obligations.StepRunsTheDecodedInstruction := by
  unfold Obligations.StepRunsTheDecodedInstruction
  intro s es i hin hc hr started hp hd
  have decoded : decodeWord (s.polled es).fetchWord = .ok i := decodeWord_fetchWord_of_decodeBytes hd
  have runs : step s = settleResult (exec i (s.polled es)) :=
    (step_poll_running hin hc hr started).trans (fetchCycle_runs hp decoded)
  rw [runs, State.polled]
  generalize exec i _ = r
  cases r <;> rfl

/-- Settles O40: by the run status, `step_poll_close`, `step_poll_waiting` or `step_poll_quit`. -/
theorem closeQuitsBeforeTheFetch : Obligations.CloseQuitsBeforeTheFetch := by
  unfold Obligations.CloseQuitsBeforeTheFetch
  refine ⟨fun s es hin hc hr started => ?_, fun s x es hin hr started => ?_,
    fun s es hin hr started => step_poll_quit hin started hr⟩
  · exact ⟨_, step_poll_close hin hc hr started, rfl, rfl, rfl, Keeps.unchanged (keeps_iff.mpr (by simp [State.polled])) rfl⟩
  · exact ⟨_, step_poll_waiting hin hr started, rfl, rfl, s.beginCycle_quit_unchanged⟩

/-- Settles O41: each event's step is a case of `waitingCycle` after the input is taken (`step_poll_waiting`). -/
theorem keyWaitByEvent : Obligations.KeyWaitByEvent := by
  unfold Obligations.KeyWaitByEvent
  intro s x hr started
  refine ⟨fun silent => ?_, fun k release => ?_, fun k press => ?_, fun close => ?_⟩
  · exact ⟨s.beginCycle, step_poll_waiting silent hr started, rfl, rfl, rfl,
      Keeps.unchanged (keeps_iff.mpr (by simp)) rfl⟩
  · exact ⟨s.beginCycle.setKey k false, step_poll_waiting release hr started, s.beginCycle.setKey_key k false, rfl, rfl, rfl,
      Keeps.unchanged (keeps_iff.mpr (by simp)) rfl⟩
  · exact ⟨s.beginCycle.completeKey x k, s.beginCycle.resumed x k, step_poll_waiting press hr started,
      s.beginCycle.completeKey_eq x k,
      s.beginCycle.completeKey_key x k, s.beginCycle.completeKey_reg_toNat x k, rfl, rfl, rfl, rfl, rfl,
      Keeps.unchanged (keeps_iff.mpr (by simp [State.resumed])) rfl⟩
  · exact ⟨_, step_poll_waiting close hr started, rfl, rfl, rfl, rfl, s.beginCycle_quit_unchanged⟩

/-- Settles O43: the timers as numbers are `State.complete_dt_toNat` and `State.complete_st_toNat`. -/
theorem completeCountsAndDecrements : Obligations.CompleteCountsAndDecrements :=
  fun s => ⟨rfl, s.complete_dt_toNat, s.complete_st_toNat, s.complete_unchanged⟩

/-- Settles O45: the codes are the values of `FaultKind.code` and `Boot.faultCode`. -/
theorem faultCodesAsListed : Obligations.FaultCodesAsListed :=
  ⟨rfl, rfl, rfl, rfl, rfl, rfl, fun _ => rfl⟩

/-- Settles O47: by which of the three ended the run. -/
theorem endedRunsTakeNoStep : Obligations.EndedRunsTakeNoStep := fun _ _ hin =>
  ⟨fun _ hb => step_poll_outOfSpace hin hb, fun started hr => step_poll_quit hin started hr,
    fun started _ hr => step_poll_faulted hin started hr⟩

end Sys2Proof.Machine

/-! PROOFS. The statement that a reset is idempotent. -/

namespace Sys2Proof.Machine

/-- What a reset reads (R131): the build parameters, the coming inputs and the count of draws (R136), and nothing else. -/
theorem State.resetBlock_congr {s t : State} (params : s.params = t.params) (inputs : s.inputs = t.inputs)
    (draws : s.draws = t.draws) : s.resetBlock = t.resetBlock := by
  rw [State.resetBlock, State.resetBlock, params, inputs, draws]

/-- Settles O56: a reset leaves unchanged the three fields that a reset reads. -/
theorem resetIsIdempotent : Obligations.ResetIsIdempotent := fun _ =>
  State.resetBlock_congr rfl rfl rfl

end Sys2Proof.Machine

/-! PROOFS. The statement that a waiting step takes the first of its events. -/

namespace Sys2Proof.Machine

/-- A waiting step takes a first event that is no close as if it were alone, and its other events become the next poll. -/
theorem waitingCycle_cons_cons {e : HostEvent} (x : Reg) (e' : HostEvent) (es : List HostEvent) (s : State)
    (noClose : e ≠ .close) :
    waitingCycle x (e :: e' :: es) s = { waitingCycle x [e] s with inputs := .poll (e' :: es) :: s.inputs } := by
  cases e with
  | press k => rfl
  | release k => rfl
  | close => exact absurd rfl noClose

/-- Settles O42: both steps are `waitingCycle` from the same state (`step_poll_waiting`), and the one with more events is the
one with the first alone, but for its coming inputs (`waitingCycle_cons_cons`). -/
theorem waitingStepLeavesLaterEvents : Obligations.WaitingStepLeavesLaterEvents := by
  unfold Obligations.WaitingStepLeavesLaterEvents
  intro s x e e' es hr started noClose hin
  refine ⟨waitingCycle x [e] s.beginCycle, step_poll_waiting rfl hr started, ?_⟩
  rw [step_poll_waiting hin hr started, waitingCycle_cons_cons x e' es _ noClose]
  rfl

end Sys2Proof.Machine
